-- ==== Sys2Proof/Word.lean ====
section
/-! DEFINITION. The widths the block works with: REG_WIDTH 32, DATA_WIDTH 8 and the 12-bit offset of the 0x1000-byte
window (spec/00_scope.md R9), and the 14-bit selector (spec/30_encoding.md R71). -/

namespace Sys2Proof

/-- A register, write data or read result: REG_WIDTH = 32 bits, unsigned (R9, R15). -/
abbrev Word := BitVec 32

/-- A FIFO element or a bus transfer: DATA_WIDTH = 8 bits (R9). -/
abbrev Byte := BitVec 8

/-- A byte offset in the register window, 0x000 to 0xFFF (spec/20_memory.md R50, spec/30_encoding.md R70). -/
abbrev Offset := BitVec 12

/-- An event's selector: rst in bit 13, rw in bit 12, offset in bits 11:0 (spec/30_encoding.md R71). -/
abbrev Selector := BitVec 14

end Sys2Proof
end

