-- ==== Sys2Proof/Syntax.lean ====
section
/-! DEFINITION. Events as the host issues them (spec/30_encoding.md R70, R71) and the 13 operations they select
(spec/00_scope.md R5, spec/30_encoding.md R72). -/

namespace Sys2Proof

/-- The direction of an access: the rw bit, 0 for a read and 1 for a write (spec/30_encoding.md R70). -/
inductive Direction where
  | read
  | write
deriving DecidableEq, Repr

/-- The five memory-mapped registers (spec/20_memory.md R51). -/
inductive Reg where
  | cr1
  | cr2
  | sr
  | dr
  | csctrl
deriving DecidableEq, Repr

/-- An event in full: the pair of a selector and the write data (spec/30_encoding.md R71).
The write data of a read and of a reset is meaningless and is ignored (R70). -/
structure Event where
  sel : Selector
  wdata : Word
deriving DecidableEq, Repr

/-- One operation of the register interface, one constructor per row of spec/opcode_table.json.
A write carries its 32 bits of write data, a bad-offset access the offset it named. -/
inductive Instr where
  | reset
  | readCr1
  | writeCr1 (wdata : Word)
  | readCr2
  | writeCr2 (wdata : Word)
  | readSr
  | writeSr (wdata : Word)
  | readDr
  | writeDr (wdata : Word)
  | readCsctrl
  | writeCsctrl (wdata : Word)
  | readBad (offset : Offset)
  | writeBad (offset : Offset) (wdata : Word)
deriving DecidableEq, Repr

/-- The names of the 13 rows of the selection table, without operands (spec/30_encoding.md R72). -/
inductive Operation where
  | reset
  | readCr1
  | writeCr1
  | readCr2
  | writeCr2
  | readSr
  | writeSr
  | readDr
  | writeDr
  | readCsctrl
  | writeCsctrl
  | readBad
  | writeBad
deriving DecidableEq, Repr

/-- The row an operation with its operands belongs to. -/
def Instr.operation : Instr → Operation
  | .reset => .reset
  | .readCr1 => .readCr1
  | .writeCr1 _ => .writeCr1
  | .readCr2 => .readCr2
  | .writeCr2 _ => .writeCr2
  | .readSr => .readSr
  | .writeSr _ => .writeSr
  | .readDr => .readDr
  | .writeDr _ => .writeDr
  | .readCsctrl => .readCsctrl
  | .writeCsctrl _ => .writeCsctrl
  | .readBad _ => .readBad
  | .writeBad _ _ => .writeBad

/-- The five reads of a register and the read of a bad offset (rw = 0). -/
def Operation.isRead : Operation → Bool
  | .readCr1 | .readCr2 | .readSr | .readDr | .readCsctrl | .readBad => true
  | .reset | .writeCr1 | .writeCr2 | .writeSr | .writeDr | .writeCsctrl | .writeBad => false

end Sys2Proof
end

