-- ==== Sys2Proof/WellFormed.lean ====
section
/-! DEFINITION. Which operations an event can select: a bad-offset operation names an offset that is none of the five
valid ones (spec/20_memory.md R52, spec/40_register_decode.md R94, R95). Nothing else about an operation can be ill
formed: every 32-bit value may be written to every register (spec/30_encoding.md R79). -/

namespace Sys2Proof

/-- The valid offsets, exactly these five (spec/20_memory.md R52). -/
def registerOffsets : List Offset := [0x000, 0x004, 0x008, 0x00C, 0x010]

/-- Whether an offset is a register's own offset (spec/20_memory.md R52). -/
def isRegisterOffset (o : Offset) : Bool := registerOffsets.contains o

/-- An operation some event selects: only the bad-offset ones have a condition (spec/30_encoding.md R72). -/
def Instr.wellFormed : Instr → Bool
  | .readBad o => !isRegisterOffset o
  | .writeBad o _ => !isRegisterOffset o
  | .reset | .readCr1 | .writeCr1 _ | .readCr2 | .writeCr2 _ | .readSr | .writeSr _ | .readDr | .writeDr _
  | .readCsctrl | .writeCsctrl _ => true

end Sys2Proof
end

