-- ==== Sys2Proof/Decode.lean ====
section
/-! DEFINITION. The selection of an operation by an event (spec/30_encoding.md R71 to R73, spec/40_register_decode.md
R91), total on every event; the selection table of R72 as a list; and the encoder, the event that issues an operation. -/

namespace Sys2Proof

/-- The 14-bit selector `{rst, rw, offset[11:0]}` (spec/30_encoding.md R71). -/
def selectorOf (rst rw : Bool) (offset : Offset) : Selector :=
  (BitVec.ofBool rst ++ BitVec.ofBool rw ++ offset).cast rfl

/-- The rst field, bit 13 (spec/30_encoding.md R71). -/
def Event.rst (e : Event) : Bool := e.sel.getLsbD 13

/-- The rw field, bit 12: 0 is a read, 1 a write (spec/30_encoding.md R71). -/
def Event.rw (e : Event) : Bool := e.sel.getLsbD 12

/-- The offset field, bits 11:0 (spec/30_encoding.md R71). -/
def Event.offset (e : Event) : Offset := e.sel.extractLsb' 0 12

/-- The read half of the case of spec/40_register_decode.md R91. -/
def decodeRead (offset : Offset) : Instr :=
  if offset = 0x000 then .readCr1
  else if offset = 0x004 then .readCr2
  else if offset = 0x008 then .readSr
  else if offset = 0x00C then .readDr
  else if offset = 0x010 then .readCsctrl
  else .readBad offset

/-- The write half of the case of spec/40_register_decode.md R91. -/
def decodeWrite (offset : Offset) (wdata : Word) : Instr :=
  if offset = 0x000 then .writeCr1 wdata
  else if offset = 0x004 then .writeCr2 wdata
  else if offset = 0x008 then .writeSr wdata
  else if offset = 0x00C then .writeDr wdata
  else if offset = 0x010 then .writeCsctrl wdata
  else .writeBad offset wdata

/-- The operation an event selects (spec/30_encoding.md R72): a reset whatever bits 12:0 hold, else the access its
direction and offset name. Total: there is no event without an operation (R72, R78). -/
def decode (e : Event) : Instr :=
  if e.rst then .reset
  else if e.rw then decodeWrite e.offset e.wdata
  else decodeRead e.offset

/-- One row of the selection table: selected when `(sel & mask) = pattern` and no earlier row is. -/
structure SelectionRow where
  operation : Operation
  mask : Selector
  pattern : Selector
deriving DecidableEq, Repr

/-- The selection table in order of priority (spec/30_encoding.md R72, spec/opcode_table.json). -/
def selectionTable : List SelectionRow :=
  [⟨.reset, 0x2000, 0x2000⟩,
   ⟨.readCr1, 0x3FFF, 0x0000⟩,
   ⟨.writeCr1, 0x3FFF, 0x1000⟩,
   ⟨.readCr2, 0x3FFF, 0x0004⟩,
   ⟨.writeCr2, 0x3FFF, 0x1004⟩,
   ⟨.readSr, 0x3FFF, 0x0008⟩,
   ⟨.writeSr, 0x3FFF, 0x1008⟩,
   ⟨.readDr, 0x3FFF, 0x000C⟩,
   ⟨.writeDr, 0x3FFF, 0x100C⟩,
   ⟨.readCsctrl, 0x3FFF, 0x0010⟩,
   ⟨.writeCsctrl, 0x3FFF, 0x1010⟩,
   ⟨.readBad, 0x3000, 0x0000⟩,
   ⟨.writeBad, 0x3000, 0x1000⟩]

/-- Whether a selector matches a row: `(sel & mask) = pattern` (spec/30_encoding.md R72). -/
def SelectionRow.hits (r : SelectionRow) (sel : Selector) : Bool := sel &&& r.mask == r.pattern

/-- The first row, in order of priority, that a selector matches (spec/30_encoding.md R72). -/
def selectRow (sel : Selector) : Option SelectionRow := selectionTable.find? (·.hits sel)

/-- The offset of a register (spec/20_memory.md R51). -/
def Reg.offset : Reg → Offset
  | .cr1 => 0x000
  | .cr2 => 0x004
  | .sr => 0x008
  | .dr => 0x00C
  | .csctrl => 0x010

/-- The event `RESET`: bits 12:0 of its selector are written as 0 (spec/30_encoding.md R71). -/
def Event.reset : Event := ⟨selectorOf true false 0, 0⟩

/-- The event `ACCESS(0, offset, -)`, its ignored write data written as 0 (spec/30_encoding.md R70). -/
def Event.read (offset : Offset) : Event := ⟨selectorOf false false offset, 0⟩

/-- The event `ACCESS(1, offset, wdata)` (spec/30_encoding.md R70). -/
def Event.write (offset : Offset) (wdata : Word) : Event := ⟨selectorOf false true offset, wdata⟩

/-- The event that issues an operation (spec/30_encoding.md R71, R72). -/
def encode : Instr → Event
  | .reset => .reset
  | .readCr1 => .read (Reg.offset .cr1)
  | .writeCr1 v => .write (Reg.offset .cr1) v
  | .readCr2 => .read (Reg.offset .cr2)
  | .writeCr2 v => .write (Reg.offset .cr2) v
  | .readSr => .read (Reg.offset .sr)
  | .writeSr v => .write (Reg.offset .sr) v
  | .readDr => .read (Reg.offset .dr)
  | .writeDr v => .write (Reg.offset .dr) v
  | .readCsctrl => .read (Reg.offset .csctrl)
  | .writeCsctrl v => .write (Reg.offset .csctrl) v
  | .readBad o => .read o
  | .writeBad o v => .write o v

/-- An event with the bits its operation does not examine written as 0: bits 12:0 of a reset's selector, and the write
data of a reset and of a read (spec/30_encoding.md R70, R71). -/
def Event.canonical (e : Event) : Event :=
  if e.rst then .reset
  else if e.rw then e
  else ⟨e.sel, 0⟩

/-- Why a number is no event word: it has bits above the selector's 14 and the write data's 32. -/
inductive DecodeError where
  | wordTooWide
deriving DecidableEq, Repr

/-- An event from its bits, the selector in bits 13:0 and the write data in bits 45:14, any bits above cut off.
DESIGN CHOICE (log entry 8): the spec gives the pair (sel, wdata) and no layout of the two in one word. -/
def Event.ofBits (w : Nat) : Event := ⟨BitVec.ofNat 14 w, BitVec.ofNat 32 (w / 2 ^ 14)⟩

/-- The event word of an event, the inverse of `Event.ofBits` (log entry 8). -/
def Event.toBits (e : Event) : Nat := e.sel.toNat + 2 ^ 14 * e.wdata.toNat

/-- The operation an event word selects; a number wider than an event word is rejected by name. -/
def decodeWord (w : Nat) : Except DecodeError Instr :=
  if w < 2 ^ 46 then .ok (decode (Event.ofBits w)) else .error .wordTooWide

/-- The operation read from an event whose bits are `w`, numbered as spec/opcode_table.json numbers them: bit 0 is the
selector's bit 0, the write data follows the selector, and every bit from `nbits` on is 0. -/
def decodeTableWord (nbits w : Nat) : Option Instr := (decodeWord (w % 2 ^ nbits)).toOption

end Sys2Proof
end

