-- ==== Sys2Proof/Config.lean ====
section
/-! DEFINITION. What is fixed when a controller is created (spec/00_scope.md R9) and the values the spec leaves open
(the answers of the bus, BASE_ADDR), the latter as constants with no body, so that nothing can be proved of which value
they have. The check of a configuration and the reference configuration stand in Sys2Proof/Machine/Layout.lean. -/

namespace Sys2Proof

/-- The configuration record (spec/00_scope.md R9): fixed when the block is created and never changed afterwards.
The bit positions are each 0 to 31 by their type; BASE_ADDR, which no rule of the block reads, is `Config.baseAddr`. -/
structure Config where
  /-- NUM_LINES, the number of chip-select output lines. -/
  numLines : Nat
  /-- FIFO_CAPACITY, in bytes, of each of the two FIFOs. -/
  fifoCapacity : Nat
  /-- CR2_TXEIE_BIT. -/
  cr2Txeie : Fin 32
  /-- CR2_RXNEIE_BIT. -/
  cr2Rxneie : Fin 32
  /-- CR2_ERRIE_BIT. -/
  cr2Errie : Fin 32
  /-- CR2_SSOE_BIT; no rule of the block reads the bit (spec/44_chip_select.md R155). -/
  cr2Ssoe : Fin 32
  /-- SR_RXNE_BIT. -/
  srRxne : Fin 32
  /-- SR_TXE_BIT. -/
  srTxe : Fin 32
  /-- SR_UDR_BIT. -/
  srUdr : Fin 32
  /-- SR_OVR_BIT. -/
  srOvr : Fin 32
  /-- SR_BSY_BIT. -/
  srBsy : Fin 32
deriving DecidableEq, Repr

/-- One transfer as the bus sees it (spec/45_bus_and_slave.md R161, R162): the levels of the chip-select lines at that
moment, the byte the block sent and the byte the bus answered. -/
structure BusTransfer where
  cs : List Bool
  sent : Byte
  answer : Byte
deriving DecidableEq, Repr

/-- FREE VALUE (log entry 5): the byte a bus of which nothing is known answers. It may depend on which bus it is, on
every transfer made before (the state of the bus and of the slaves behind it), on the lines and on the byte sent
(spec/45_bus_and_slave.md R161, R163, R164: the answer is any byte, determined by the state of the bus and the byte). -/
opaque Config.busAnswer (seed : Nat) (before : List BusTransfer) (cs : List Bool) (sent : Byte) : Byte

/-- FREE VALUE (log entry 7): the byte a script bus answers after its last scripted byte. The bus always answers with
exactly one byte (spec/45_bus_and_slave.md R160), and R171 names none beyond the script. -/
opaque Config.scriptExhausted (before : List BusTransfer) (cs : List Bool) (sent : Byte) : Byte

/-- OPEN parameter (log entry 14): BASE_ADDR, where the platform puts the window (spec/00_scope.md R9, decision D5). -/
opaque Config.baseAddr : Nat

end Sys2Proof
end

