-- ==== Sys2Proof/Machine/Environment.lean ====
section
/-! DEFINITION. The environment of the block as plain data (spec/10_state.md R33, spec/45_bus_and_slave.md R161): the buses a
controller can be attached to, their state, and the state each starts in. -/

namespace Sys2Proof.Machine

/-- The state of the reference slave: idle, identity readout with `k` bytes given, data readout
(spec/45_bus_and_slave.md R169). -/
inductive SlaveState where
  | idle
  | idrd (k : Fin 4)
  | datard
deriving DecidableEq, Repr

/-- The parameters of the reference slave (spec/45_bus_and_slave.md R169); `rdCmds` is the set RD_CMDS as a list. -/
structure SlaveParams where
  idCmd : Byte
  id0 : Byte
  id1 : Byte
  id2 : Byte
  rdCmds : List Byte
  cmdResp : Byte
deriving DecidableEq, Repr

/-- Which bus the controller is attached to, with the state of what stands behind it (spec/45_bus_and_slave.md R161):
a bus of which nothing is known (R163, D20), the bus that answers from a script (R171), or the reference bus with one
reference slave on line 0 (R170). -/
inductive BusEnv where
  | free (seed : Nat)
  | script (answers : List Byte)
  | ref (params : SlaveParams) (slave : SlaveState)
deriving DecidableEq, Repr

/-- The environment: the bus and the transfers it has seen since creation, oldest first (spec/10_state.md R33,
spec/45_bus_and_slave.md R162). The block reads nothing of it. -/
structure BusState where
  env : BusEnv
  log : List BusTransfer
deriving DecidableEq, Repr

/-- A bus as the platform supplies it, without its state (spec/00_scope.md R10): a bus of which nothing is known
(spec/45_bus_and_slave.md R163, D20), `ScriptBus(r_1, r_2, ...)` (R171), or `RefBus` with the parameters of its one
reference slave (R169, R170). -/
inductive Bus where
  | free (seed : Nat)
  | script (answers : List Byte)
  | ref (params : SlaveParams)
deriving DecidableEq, Repr

/-- "Initial state `idle`" (spec/45_bus_and_slave.md R169). -/
def slaveInitial : SlaveState := .idle

/-- The state a bus starts in: the reference slave in its initial state (spec/45_bus_and_slave.md R169), a script at its
first byte (R171). -/
def Bus.initial : Bus → BusEnv
  | .free seed => .free seed
  | .script answers => .script answers
  | .ref params => .ref params slaveInitial

/-- The environment of a controller just created: the bus in its initial state, with no transfer seen (log entry 6). -/
def Bus.created (b : Bus) : BusState := ⟨b.initial, []⟩

end Sys2Proof.Machine
end

