-- ==== Sys2Proof/Machine/Bits.lean ====
section
/-! DEFINITION. The bit-field helpers of the block: single bits, masks, truncation and zero-extension, which with AND,
OR and NOT are its whole arithmetic (spec/30_encoding.md R77). -/

namespace Sys2Proof.Machine

/-- `X_MASK = 1 << X_BIT` (spec/00_scope.md R17). -/
def bitMask (b : Fin 32) : Word := 1#32 <<< b.val

/-- `v[b]`, the single bit at a position (spec/00_scope.md R15). -/
def getBit (v : Word) (b : Fin 32) : Bool := v.getLsbD b.val

/-- `v[b] <- x`: a Boolean stores 1 for true and 0 for false, every other bit stays (spec/00_scope.md R15). -/
def setBit (v : Word) (b : Fin 32) (x : Bool) : Word :=
  if x then v ||| bitMask b else v &&& ~~~bitMask b

/-- `zext_32(b)`: bits 7:0 are the byte and bits 31:8 are 0 (spec/00_scope.md R16). -/
def zext32 (b : Byte) : Word := b.setWidth 32

/-- `trunc_8(v) = v[7:0]` (spec/00_scope.md R16). -/
def trunc8 (v : Word) : Byte := v.extractLsb' 0 8

end Sys2Proof.Machine
end

