-- ==== Sys2Proof/Machine/Layout.lean ====
section
/-! DEFINITION. The check of a configuration, the reference configuration and the masks built from a configuration's bit
positions (spec/00_scope.md R9, R17; spec/44_chip_select.md R156). -/

namespace Sys2Proof.Machine

/-- The legal ranges of spec/00_scope.md R9: NUM_LINES 1 to 4, FIFO_CAPACITY at least 1, the four CR2 positions pairwise
distinct and the five SR positions pairwise distinct. Each position is 0 to 31 by its type. -/
def configLegal (c : Config) : Bool :=
  decide (1 ≤ c.numLines) && decide (c.numLines ≤ 4) && decide (1 ≤ c.fifoCapacity)
    && decide ([c.cr2Txeie, c.cr2Rxneie, c.cr2Errie, c.cr2Ssoe].Nodup)
    && decide ([c.srRxne, c.srTxe, c.srUdr, c.srOvr, c.srBsy].Nodup)

/-- The reference configuration (spec/00_scope.md R9, R19). PRESUMED, unsafe (log entry 3): the nine bit positions are
marked [from general knowledge, not in source] by the spec (spec/93_implementation_defined.md G1, G2). -/
def referenceConfig : Config where
  numLines := 4
  fifoCapacity := 1
  cr2Txeie := 7
  cr2Rxneie := 6
  cr2Errie := 5
  cr2Ssoe := 4
  srRxne := 0
  srTxe := 1
  srUdr := 2
  srOvr := 3
  srBsy := 7

/-- `SR_RESET = SR_TXE_MASK` (spec/00_scope.md R17, spec/10_state.md R36; the spec's decision D8, log entry 10). -/
def srReset (c : Config) : Word := bitMask c.srTxe

/-- `SR_W1C_MASK = SR_OVR_MASK | SR_UDR_MASK` (spec/00_scope.md R17). -/
def srW1cMask (c : Config) : Word := bitMask c.srOvr ||| bitMask c.srUdr

end Sys2Proof.Machine
end

