-- ==== Sys2Proof/Machine/State.lean ====
section
/-! DEFINITION. Everything the spec gives the machine as plain data (spec/10_state.md R20), with the environment and the
configuration that Step threads (spec/00_scope.md R12), the reasons a step can stop, and the state after reset. -/

namespace Sys2Proof.Machine

/-- The diagnostic `bad_offset(direction, offset)` (spec/40_register_decode.md R97). -/
structure BadOffset where
  direction : Direction
  offset : Offset
deriving DecidableEq, Repr

/-- The machine: one controller (spec/10_state.md R20), its configuration (spec/00_scope.md R9), its environment
(spec/10_state.md R33), the events the host has issued and the outputs of the last step (spec/00_scope.md R12). -/
structure State where
  /-- The configuration; no step changes it (log entry 3). -/
  cfg : Config
  /-- Control register 1, opaque storage (spec/10_state.md R23). -/
  cr1 : Word
  /-- Control register 2, the three interrupt enables and SSOE (spec/10_state.md R24). -/
  cr2 : Word
  /-- Status register: RXNE, TXE, UDR, OVR, BSY (spec/10_state.md R25), in the stored form of R41 (log entry 11). -/
  sr : Word
  /-- Chip-select control: EN in bits 3:0, ACT in bits 7:4 (spec/10_state.md R28). -/
  csctrl : Word
  /-- Transmit FIFO, oldest byte first (spec/10_state.md R29). -/
  txFifo : List Byte
  /-- Receive FIFO, oldest byte first (spec/10_state.md R29). -/
  rxFifo : List Byte
  /-- Level of the interrupt output line, true = asserted (spec/10_state.md R30; log entries 11 and 18). -/
  irqOut : Bool
  /-- Levels of the NUM_LINES chip-select lines, line 0 first, true = asserted (spec/10_state.md R31; log entry 12). -/
  csOut : List Bool
  /-- The environment (spec/10_state.md R33); a reset of the block leaves it alone (spec/70_reset_and_hazards.md R212). -/
  bus : BusState
  /-- The model's own: events issued by the host and not yet served, oldest first (log entry 1). -/
  events : List Event
  /-- The model's own: what the last served event returned, a value for a read only (log entry 2). -/
  result : Option Word
  /-- The model's own: the diagnostic of the last served event (spec/40_register_decode.md R97, log entry 2). -/
  diag : Option BadOffset
deriving DecidableEq, Repr

/-- No operation of the block faults, "under any circumstances" (spec/60_exceptions.md R186): the type of faults is empty,
so no step can raise one. -/
inductive Fault where
deriving DecidableEq, Repr

/-- Why a step has no meaning. -/
inductive Refusal where
  /-- Raised by exec's arm of an operation that has no meaning yet; safe. No arm raises it. -/
  | notModelled (mnemonic : String)
  /-- Raised by `step` and `attach` for a configuration outside the legal ranges, which the spec refuses
  (spec/44_chip_select.md R156, decision D14); safe. -/
  | illegalConfig
  /-- Raised by `attach` for a reference slave whose RD_CMDS holds its ID_CMD, which spec/45_bus_and_slave.md R169 rules out
  (log entry 7); safe. -/
  | illegalSlave
deriving DecidableEq, Repr

/-- The state a controller is created in, `Reset(config)` (spec/10_state.md R36, R43), attached to a bus in its initial
state (spec/45_bus_and_slave.md R169), with no event issued yet. -/
def State.create (cfg : Config) (b : Bus) : State where
  cfg := cfg
  cr1 := 0x00000000
  cr2 := 0x00000000
  sr := srReset cfg
  csctrl := 0x00000000
  txFifo := []
  rxFifo := []
  irqOut := false
  csOut := List.replicate cfg.numLines false
  bus := b.created
  events := []
  result := none
  diag := none

/-- The machine right after reset (spec/10_state.md R36) in the reference configuration (log entry 3), on a bus of which
nothing is known (log entry 5). -/
def State.reset : State := State.create referenceConfig (.free 0)

end Sys2Proof.Machine
end

