-- ==== Sys2Proof/Machine/Bus.lean ====
section
/-! DEFINITION. The environment the block calls: `Bus.transfer` (spec/45_bus_and_slave.md R160, R161), the reference slave
(R169), the reference bus (R170), the script bus (R171) and the bus of which nothing is known (R163, decision D20). -/

namespace Sys2Proof.Machine

/-- FILLER = 0xFF (spec/45_bus_and_slave.md R169). -/
def slaveFiller : Byte := 0xFF

/-- The byte of a serial line no slave drives, 0xFF (spec/45_bus_and_slave.md R170). PRESUMED by the spec
(spec/93_implementation_defined.md G4, log entry 7); RefBus alone uses it. -/
def undrivenLine : Byte := 0xFF

/-- Whether the parameters of a reference slave are legal: RD_CMDS is disjoint from ID_CMD
(spec/45_bus_and_slave.md R169). -/
def slaveParamsLegal (p : SlaveParams) : Bool := !p.rdCmds.contains p.idCmd

/-- Whether a controller can be attached to a bus: the parameters of a reference slave are legal
(spec/45_bus_and_slave.md R169); there is no condition on any other bus (R163, R171). -/
def Bus.legal : Bus → Bool
  | .free _ | .script _ => true
  | .ref params => slaveParamsLegal params

/-- The illustrative parameters of the spec's vectors (spec/45_bus_and_slave.md R170). PRESUMED by the spec
(spec/93_implementation_defined.md G5 to G7, log entry 7); no rule of the block depends on them. -/
def illustrativeSlave : SlaveParams where
  idCmd := 0x9F
  id0 := 0xEF
  id1 := 0x30
  id2 := 0x15
  rdCmds := [0x03]
  cmdResp := 0x00

/-- `RefSlave.transfer` of spec/45_bus_and_slave.md R169; `none` where a slave that is not selected answers nothing. -/
def refSlaveTransfer (p : SlaveParams) (st : SlaveState) (selected : Bool) (x : Byte) : SlaveState × Option Byte :=
  if !selected then (.idle, none)
  else
    match st with
    | .idle =>
      if x = p.idCmd then (.idrd 0, some p.cmdResp)
      else if p.rdCmds.contains x then (.datard, some p.cmdResp)
      else (.idle, some p.cmdResp)
    | .idrd 0 => (.idrd 1, some p.id0)
    | .idrd 1 => (.idrd 2, some p.id1)
    | .idrd 2 => (.idrd 3, some p.id2)
    | .idrd 3 => (.idrd 3, some slaveFiller)
    | .datard => (.datard, some slaveFiller)

/-- `RefBus.transfer` of spec/45_bus_and_slave.md R170: the slave on line 0 is selected when line 0 is asserted; with no
answer from it the line is undriven. -/
def refBusTransfer (p : SlaveParams) (st : SlaveState) (cs : List Bool) (t : Byte) : SlaveState × Byte :=
  let (st', r) := refSlaveTransfer p st (cs.getD 0 false) t
  (st', r.getD undrivenLine)

/-- What a bus does with a byte, given the lines and the transfers it saw before: its next state and its answer
(spec/45_bus_and_slave.md R161; log entry 16). Every bus answers with one byte (R160). -/
def busEnvTransfer (env : BusEnv) (before : List BusTransfer) (cs : List Bool) (t : Byte) : BusEnv × Byte :=
  match env with
  | .free seed => (.free seed, Config.busAnswer seed before cs t)
  | .script [] => (.script [], Config.scriptExhausted before cs t)
  | .script (r :: rs) => (.script rs, r)
  | .ref p st =>
    let (st', r) := refBusTransfer p st cs t
    (.ref p st', r)

/-- `Bus.transfer(t) -> r` (spec/45_bus_and_slave.md R160, R161), the transfer recorded in the log of the environment. -/
def busTransfer (b : BusState) (cs : List Bool) (t : Byte) : BusState × Byte :=
  let (env', r) := busEnvTransfer b.env b.log cs t
  (⟨env', b.log ++ [⟨cs, t, r⟩]⟩, r)

end Sys2Proof.Machine
end

