-- ==== Sys2Proof/Machine/Fifo.lean ====
section
/-! DEFINITION. The primitives of a FIFO, a list of bytes with the oldest first (spec/41_fifo_pair.md R100 to R105). -/

namespace Sys2Proof.Machine

/-- `q.is_empty()` (spec/41_fifo_pair.md R105). -/
def fifoIsEmpty (q : List Byte) : Bool := q.length == 0

/-- `q.is_full()` for a FIFO of the given capacity (spec/41_fifo_pair.md R105). -/
def fifoIsFull (cap : Nat) (q : List Byte) : Bool := q.length == cap

/-- `q.push(b) -> ok`: the queue after it and ok; a full queue drops the new byte (spec/41_fifo_pair.md R103). -/
def fifoPush (cap : Nat) (q : List Byte) (b : Byte) : List Byte × Bool :=
  if fifoIsFull cap q then (q, false) else (q ++ [b], true)

/-- `q.pop() -> (b, ok)`: the queue after it, the oldest byte and ok; an empty queue gives (0x00, false)
(spec/41_fifo_pair.md R104). -/
def fifoPop (q : List Byte) : List Byte × Byte × Bool :=
  match q with
  | [] => ([], 0x00, false)
  | b :: rest => (rest, b, true)

end Sys2Proof.Machine
end

