-- ==== Sys2Proof/Machine/Operands.lean ====
section
/-! DEFINITION. Assembly of operands from the data of an access (spec/30_encoding.md R76). -/

namespace Sys2Proof.Machine

/-- The transmit byte `wdata[7:0]` (spec/30_encoding.md R76; the spec's decision D11, log entry 10). -/
def txByte (wdata : Word) : Byte := trunc8 wdata

/-- The received word `zext_32(b)` (spec/30_encoding.md R76). -/
def rxWord (b : Byte) : Word := zext32 b

/-- The clear mask `wdata & SR_W1C_MASK` (spec/30_encoding.md R76). -/
def clearMask (c : Config) (wdata : Word) : Word := wdata &&& srW1cMask c

/-- The enable nibble EN[3:0], bits 3:0 of csctrl (spec/10_state.md R28). -/
def enNibble (csctrl : Word) : BitVec 4 := csctrl.extractLsb' 0 4

/-- The active nibble ACT[3:0], bits 7:4 of csctrl whatever NUM_LINES is (spec/10_state.md R28). -/
def actNibble (csctrl : Word) : BitVec 4 := csctrl.extractLsb' 4 4

/-- The level of line i: EN[i] and ACT[i] (spec/30_encoding.md R76, spec/44_chip_select.md R152). -/
def lineLevel (csctrl : Word) (i : Nat) : Bool := (enNibble csctrl).getLsbD i && (actNibble csctrl).getLsbD i

/-- The levels of lines 0 to NUM_LINES - 1 (spec/44_chip_select.md R152). -/
def lineLevels (c : Config) (csctrl : Word) : List Bool := (List.range c.numLines).map (lineLevel csctrl)

end Sys2Proof.Machine
end

