-- ==== Sys2Proof/Machine/Flags.lean ====
section
/-! DEFINITION. The status flags (spec/10_state.md R25, R26) and the Interrupt Combinator with which every access ends
(spec/60_exceptions.md R180, spec/40_register_decode.md R92). For this hardware the combinator is what stands in the
place of taking an exception: "trap entry" is only that the line rises at the end of the access (R189), and "trap
return" that an access removes the condition (R190). -/

namespace Sys2Proof.Machine

/-- The bit of sr at a position. -/
def flag (s : State) (b : Fin 32) : Bool := getBit s.sr b

/-- `sr[b] <- x`. -/
def setFlag (b : Fin 32) (x : Bool) (s : State) : State := { s with sr := setBit s.sr b x }

/-- Write-1-to-clear: `sr <- sr & ~(wdata & SR_W1C_MASK)` (spec/43_control_and_status_registers.md R135). -/
def clearSticky (wdata : Word) (s : State) : State := { s with sr := s.sr &&& ~~~clearMask s.cfg wdata }

/-- Step 1 of the Interrupt Combinator: TXE and RXNE from the FIFOs (spec/60_exceptions.md R180). -/
def refreshStatus (s : State) : State :=
  setFlag s.cfg.srRxne (!fifoIsEmpty s.rxFifo) (setFlag s.cfg.srTxe (fifoIsEmpty s.txFifo) s)

/-- The formula of the line over sr and cr2, step 2 of the Interrupt Combinator (spec/60_exceptions.md R180). -/
def irqLevel (c : Config) (sr cr2 : Word) : Bool :=
  (getBit sr c.srRxne && getBit cr2 c.cr2Rxneie)
    || (getBit sr c.srTxe && getBit cr2 c.cr2Txeie)
    || ((getBit sr c.srOvr || getBit sr c.srUdr) && getBit cr2 c.cr2Errie)

/-- `irq_out` recomputed as a whole from sr and cr2 (spec/60_exceptions.md R180). -/
def driveIrq (s : State) : State := { s with irqOut := irqLevel s.cfg s.sr s.cr2 }

/-- `InterruptCombinator()` (spec/60_exceptions.md R180). -/
def interruptCombinator (s : State) : State := driveIrq (refreshStatus s)

end Sys2Proof.Machine
end

