-- ==== Sys2Proof/Machine/Ops.lean ====
section
/-! DEFINITION. The shared operations of the block: serving the next event, the beginning and the end every access has
(spec/40_register_decode.md R91, R92), the FIFO and bus operations on the state, the Transfer Engine
(spec/42_data_register_and_transfer_engine.md R112), the Chip-Select Controller (spec/44_chip_select.md R152) and the
reset of the block (spec/70_reset_and_hazards.md R210). -/

namespace Sys2Proof.Machine

/-- The outcome of a step of this machine. -/
abbrev Out := Host.Outcome State Fault Refusal

/-- The oldest event the host has issued, taken off the queue; none when nothing is pending (log entry 1). -/
def nextEvent (s : State) : Option (Event × State) :=
  match s.events with
  | [] => none
  | e :: rest => some (e, { s with events := rest })

/-- An event put where the next step serves it, before any other (log entry 1). -/
def issueFirst (e : Event) (s : State) : State := { s with events := e :: s.events }

/-- The outputs of a step at its beginning: `diag <- none`, `result <- nothing` (spec/40_register_decode.md R91). -/
def beginStep (s : State) : State := { s with result := none, diag := none }

/-- `diag <- bad_offset(direction, offset)` (spec/40_register_decode.md R94, R95, R97). -/
def reportBadOffset (d : Direction) (o : Offset) (s : State) : State := { s with diag := some ⟨d, o⟩ }

/-- The value a read's handler returns, fixed before the epilogue (spec/40_register_decode.md R91). -/
def returnValue (v : Word) (s : State) : State := { s with result := some v }

/-- The end of every access: the epilogue, then the access is complete (spec/40_register_decode.md R91, R92). -/
def finishAccess (s : State) : Out := .next (interruptCombinator s)

/-- The push of a byte into tx_fifo, OVR set when it is full (spec/42_data_register_and_transfer_engine.md R110). -/
def pushTx (b : Byte) (s : State) : State :=
  let (q, ok) := fifoPush s.cfg.fifoCapacity s.txFifo b
  if ok then { s with txFifo := q } else setFlag s.cfg.srOvr true { s with txFifo := q }

/-- The push of a response into rx_fifo, OVR set when it is full and the response dropped
(spec/42_data_register_and_transfer_engine.md R112, R117). -/
def pushRx (r : Byte) (s : State) : State :=
  let (q, ok) := fifoPush s.cfg.fifoCapacity s.rxFifo r
  if ok then { s with rxFifo := q } else setFlag s.cfg.srOvr true { s with rxFifo := q }

/-- The handler of a read of DR: pop rx_fifo and return the byte, or set UDR and return 0
(spec/42_data_register_and_transfer_engine.md R111). -/
def popRx (s : State) : State :=
  let (q, b, ok) := fifoPop s.rxFifo
  if ok then returnValue (rxWord b) { s with rxFifo := q }
  else returnValue 0x00000000 (setFlag s.cfg.srUdr true { s with rxFifo := q })

/-- One iteration of the engine's loop: pop, then transfer, then the attempt to push
(spec/42_data_register_and_transfer_engine.md R112; the spec's decision D25, log entry 10). -/
def engineIteration (s : State) : State :=
  let (q, t, _) := fifoPop s.txFifo
  let (bus', r) := busTransfer s.bus s.csOut t
  pushRx r { s with txFifo := q, bus := bus' }

/-- The engine's loop, one iteration for each byte tx_fifo holds on entry
(spec/42_data_register_and_transfer_engine.md R112): no iteration pushes into tx_fifo. -/
def engineLoop : List Byte → State → State
  | [], s => s
  | _ :: rest, s => engineLoop rest (engineIteration s)

/-- `TransferEngine()` (spec/42_data_register_and_transfer_engine.md R112). It reads no control register (R114). -/
def transferEngine (s : State) : State :=
  let s₁ := setFlag s.cfg.srBsy true s
  let s₂ := engineLoop s₁.txFifo s₁
  setFlag s₂.cfg.srTxe true (setFlag s₂.cfg.srBsy false s₂)

/-- `ChipSelectUpdate()`: every line is redriven from csctrl (spec/44_chip_select.md R152). -/
def chipSelectUpdate (s : State) : State := { s with csOut := lineLevels s.cfg s.csctrl }

/-- `Reset()` (spec/70_reset_and_hazards.md R210): the whole of the block; not the configuration and not the bus (R212). -/
def resetBlock (s : State) : State :=
  { s with
    cr1 := 0x00000000
    cr2 := 0x00000000
    csctrl := 0x00000000
    sr := srReset s.cfg
    txFifo := []
    rxFifo := []
    csOut := List.replicate s.cfg.numLines false
    irqOut := false }

end Sys2Proof.Machine
end

