-- ==== Sys2Proof/Machine/BadOffset.lean ====
section
/-! DEFINITION. The meanings of the two accesses to an offset that names no register (spec/40_register_decode.md). -/

namespace Sys2Proof.Machine

/-- READ_BAD (spec/40_register_decode.md R94): returns 0 and reports. -/
def execReadBad (offset : Offset) (s : State) : Out :=
  finishAccess (returnValue 0x00000000 (reportBadOffset .read offset (beginStep s)))

/-- WRITE_BAD (spec/40_register_decode.md R95): the value is discarded; reports. -/
def execWriteBad (offset : Offset) (_wdata : Word) (s : State) : Out :=
  finishAccess (reportBadOffset .write offset (beginStep s))

end Sys2Proof.Machine
end

