-- ==== Sys2Proof/Machine/ChipSelect.lean ====
section
/-! DEFINITION. The meanings of the two operations on CSCTRL (spec/44_chip_select.md). -/

namespace Sys2Proof.Machine

/-- READ_CSCTRL (spec/44_chip_select.md R150): the lines are not redriven. -/
def execReadCsctrl (s : State) : Out := finishAccess (returnValue s.csctrl (beginStep s))

/-- WRITE_CSCTRL (spec/44_chip_select.md R151): store, ChipSelectUpdate(), then the epilogue
(spec/40_register_decode.md R93). -/
def execWriteCsctrl (wdata : Word) (s : State) : Out :=
  finishAccess (chipSelectUpdate { beginStep s with csctrl := wdata })

end Sys2Proof.Machine
end

