-- ==== Sys2Proof/Machine/ControlStatus.lean ====
section
/-! DEFINITION. The meanings of the six operations on CR1, CR2 and SR (spec/43_control_and_status_registers.md). -/

namespace Sys2Proof.Machine

/-- READ_CR1 (spec/43_control_and_status_registers.md R130). -/
def execReadCr1 (s : State) : Out := finishAccess (returnValue s.cr1 (beginStep s))

/-- WRITE_CR1 (spec/43_control_and_status_registers.md R131): all 32 bits are stored (the spec's decision D10, log entry
10) and none has an effect (D18). -/
def execWriteCr1 (wdata : Word) (s : State) : Out := finishAccess { beginStep s with cr1 := wdata }

/-- READ_CR2 (spec/43_control_and_status_registers.md R132). -/
def execReadCr2 (s : State) : Out := finishAccess (returnValue s.cr2 (beginStep s))

/-- WRITE_CR2 (spec/43_control_and_status_registers.md R133): the epilogue uses the new enables. -/
def execWriteCr2 (wdata : Word) (s : State) : Out := finishAccess { beginStep s with cr2 := wdata }

/-- READ_SR (spec/43_control_and_status_registers.md R134): the stored value, taken before the epilogue; clears nothing. -/
def execReadSr (s : State) : Out := finishAccess (returnValue s.sr (beginStep s))

/-- WRITE_SR (spec/43_control_and_status_registers.md R135): write-1-to-clear of OVR and UDR. -/
def execWriteSr (wdata : Word) (s : State) : Out := finishAccess (clearSticky wdata (beginStep s))

end Sys2Proof.Machine
end

