-- ==== Sys2Proof/Machine/DataRegister.lean ====
section
/-! DEFINITION. The meanings of the two operations on DR (spec/42_data_register_and_transfer_engine.md). -/

namespace Sys2Proof.Machine

/-- READ_DR (spec/42_data_register_and_transfer_engine.md R111): no bus call. -/
def execReadDr (s : State) : Out := finishAccess (popRx (beginStep s))

/-- WRITE_DR (spec/42_data_register_and_transfer_engine.md R110): the engine runs whether or not the push succeeded (the
spec's decision D12, log entry 10). -/
def execWriteDr (wdata : Word) (s : State) : Out := finishAccess (transferEngine (pushTx (txByte wdata) (beginStep s)))

end Sys2Proof.Machine
end

