-- ==== Sys2Proof/Machine/Reset.lean ====
section
/-! DEFINITION. The meaning of the reset event (spec/70_reset_and_hazards.md). -/

namespace Sys2Proof.Machine

/-- RESET (spec/70_reset_and_hazards.md R210): no result, no diagnostic, and no epilogue (spec/40_register_decode.md
R92). -/
def execReset (s : State) : Out := .next (resetBlock (beginStep s))

end Sys2Proof.Machine
end

