-- ==== Sys2Proof/Machine/Dispatch.lean ====
section
/-! DEFINITION. One arm per operation (spec/40_register_decode.md R91 and the reset event). -/

namespace Sys2Proof.Machine

def exec (i : Instr) (s : State) : Host.Outcome State Fault Refusal :=
  match i with
  | .reset => Sys2Proof.Machine.execReset s
  | .readCr1 => Sys2Proof.Machine.execReadCr1 s
  | .writeCr1 wdata => Sys2Proof.Machine.execWriteCr1 wdata s
  | .readCr2 => Sys2Proof.Machine.execReadCr2 s
  | .writeCr2 wdata => Sys2Proof.Machine.execWriteCr2 wdata s
  | .readSr => Sys2Proof.Machine.execReadSr s
  | .writeSr wdata => Sys2Proof.Machine.execWriteSr wdata s
  | .readDr => Sys2Proof.Machine.execReadDr s
  | .writeDr wdata => Sys2Proof.Machine.execWriteDr wdata s
  | .readCsctrl => Sys2Proof.Machine.execReadCsctrl s
  | .writeCsctrl wdata => Sys2Proof.Machine.execWriteCsctrl wdata s
  | .readBad offset => Sys2Proof.Machine.execReadBad offset s
  | .writeBad offset wdata => Sys2Proof.Machine.execWriteBad offset wdata s

end Sys2Proof.Machine
end

