-- ==== Sys2Proof/Machine/Step.lean ====
section
/-! DEFINITION. One step: the block serves the oldest event the host has issued (spec/00_scope.md R11, R12, R14). -/

namespace Sys2Proof.Machine

/-- One step. A configuration outside the legal ranges is refused (spec/44_chip_select.md R156, D14). With no event
pending nothing happens: the block takes no step of its own (spec/00_scope.md R11, spec/10_state.md R22; log entry 1).
Else the oldest event is taken and its operation performed to the end. -/
def step (s : State) : Host.Outcome State Fault Refusal :=
  if configLegal s.cfg then
    match nextEvent s with
    | none => .next s
    | some (e, s') => exec (decode e) s'
  else .refused .illegalConfig

/-- The state with the event whose bits are `w` issued, to be served by the very next step. It stands for the host issuing
the event: the block loads no program (log entry 1). Bits from `nbits` on are 0. -/
def State.withFetchWord (s : State) (nbits w : Nat) : State := issueFirst (Event.ofBits (w % 2 ^ nbits)) s

end Sys2Proof.Machine
end

