-- ==== Sys2Proof/Machine/HostView.lean ====
section
/-! DEFINITION. The block seen from outside: creating a controller (spec/10_state.md R43), accesses by host address
(spec/00_scope.md R16), the physical pins (spec/44_chip_select.md R153) and the spec's named sequences of events
(spec/30_encoding.md R82), which have no meaning of their own. -/

namespace Sys2Proof.Machine

/-- A controller created with a configuration and attached to a bus, which starts in its initial state. A configuration
outside the legal ranges is refused (spec/44_chip_select.md R156), and so is a reference slave whose parameters are not
legal (spec/45_bus_and_slave.md R169, log entry 7). -/
def attach (cfg : Config) (b : Bus) : Out :=
  if configLegal cfg then
    if b.legal then .next (State.create cfg b) else .refused .illegalSlave
  else .refused .illegalConfig

/-- WINDOW_SIZE = 0x1000 (spec/00_scope.md R9). -/
def windowSize : Nat := 0x1000

/-- The offset a host address names when it lies in the window at `base`; an address outside is not delivered to the block
(spec/20_memory.md R58). -/
def windowOffset (base addr : Nat) : Option Offset :=
  if base ≤ addr ∧ addr < base + windowSize then some (BitVec.ofNat 12 (addr - base)) else none

/-- `MemRead(BASE_ADDR + offset, 4)` is the event `ACCESS(R, offset, -)` (spec/00_scope.md R16). -/
def hostRead (addr : Nat) : Option Event := (windowOffset Config.baseAddr addr).map Event.read

/-- `MemWrite(BASE_ADDR + offset, 4, v)` is the event `ACCESS(W, offset, v)` (spec/00_scope.md R16). -/
def hostWrite (addr : Nat) (v : Word) : Option Event := (windowOffset Config.baseAddr addr).map (Event.write · v)

/-- The physical levels of the chip-select pins: low when asserted (spec/44_chip_select.md R153; the spec's decision D15,
log entry 10). -/
def pinLevels (s : State) : List Bool := s.csOut.map (!·)

/-- `W <reg> <value>` (spec/30_encoding.md R81). -/
def writeReg (r : Reg) (v : Word) : Event := .write r.offset v

/-- `R <reg>` (spec/30_encoding.md R81). -/
def readReg (r : Reg) : Event := .read r.offset

/-- `XFER b`: send, then fetch the response (spec/30_encoding.md R82). -/
def xferEvents (b : Word) : List Event := [writeReg .dr b, readReg .dr]

/-- `SELECT i`: line i alone (spec/30_encoding.md R82). -/
def selectEvents (i : Fin 4) : List Event := [writeReg .csctrl ((1#32 <<< i.val) ||| (1#32 <<< (4 + i.val)))]

/-- `DESELECT`: every line deasserted (spec/30_encoding.md R82). -/
def deselectEvents : List Event := [writeReg .csctrl 0x00000000]

/-- `CLR_ERR`: OVR and UDR cleared (spec/30_encoding.md R82). -/
def clrErrEvents (c : Config) : List Event := [writeReg .sr (srW1cMask c)]

/-- `CLR_OVR` (spec/30_encoding.md R82). -/
def clrOvrEvents (c : Config) : List Event := [writeReg .sr (bitMask c.srOvr)]

/-- `CLR_UDR` (spec/30_encoding.md R82). -/
def clrUdrEvents (c : Config) : List Event := [writeReg .sr (bitMask c.srUdr)]

/-- `IRQ_EN mask`: overwrites all of cr2 (spec/30_encoding.md R82). -/
def irqEnEvents (mask : Word) : List Event := [writeReg .cr2 mask]

end Sys2Proof.Machine
end

