-- ==== Sys2Proof/Safety.lean ====
section
/-! DEFINITION. The terms in which claims about the block are stated: what holds at every quiescent point
(spec/10_state.md R40), what the epilogue of an access leaves (spec/60_exceptions.md R180), which bits of sr are kept,
and a run of FIFO primitives (spec/41_fifo_pair.md R106). -/

namespace Sys2Proof.Machine

/-- Every bit of sr but the listed ones has the value it had. -/
def SrBitsKept (s t : State) (written : List (Fin 32)) : Prop := ∀ b, b ∉ written → flag t b = flag s b

/-- What the epilogue leaves (spec/60_exceptions.md R180): TXE and RXNE say what the FIFOs hold, and the interrupt line
has the level of the formula over the sr and cr2 the access leaves. -/
structure EpilogueDone (t : State) : Prop where
  txe : flag t t.cfg.srTxe = t.txFifo.isEmpty
  rxne : flag t t.cfg.srRxne = !t.rxFifo.isEmpty
  irq : t.irqOut =
    ((flag t t.cfg.srRxne && getBit t.cr2 t.cfg.cr2Rxneie) || (flag t t.cfg.srTxe && getBit t.cr2 t.cfg.cr2Txeie)
      || ((flag t t.cfg.srOvr || flag t t.cfg.srUdr) && getBit t.cr2 t.cfg.cr2Errie))

/-- The invariants I1 to I8 of every quiescent point (spec/10_state.md R40), for a legal configuration; I9 follows. -/
structure State.Inv (s : State) : Prop where
  /-- The configuration is in the legal ranges (spec/00_scope.md R9). -/
  legal : configLegal s.cfg = true
  /-- I1: RXNE is 1 iff rx_fifo holds a byte. -/
  rxne : flag s s.cfg.srRxne = true ↔ 0 < s.rxFifo.length
  /-- I2: TXE is 1 iff tx_fifo holds none. -/
  txe : flag s s.cfg.srTxe = true ↔ s.txFifo.length = 0
  /-- I3: BSY is 0. -/
  bsy : flag s s.cfg.srBsy = false
  /-- There are NUM_LINES chip-select lines. -/
  lines : s.csOut.length = s.cfg.numLines
  /-- I4: line i is asserted iff its enable bit and its active bit are both set. -/
  cs : ∀ i, i < s.cfg.numLines → s.csOut[i]? = some (s.csctrl.getLsbD i && s.csctrl.getLsbD (4 + i))
  /-- I5: tx_fifo is empty. -/
  txEmpty : s.txFifo = []
  /-- I6: rx_fifo holds at most FIFO_CAPACITY bytes. -/
  rxBound : s.rxFifo.length ≤ s.cfg.fifoCapacity
  /-- I7: the interrupt line has the level of the formula. -/
  irq : s.irqOut =
    ((flag s s.cfg.srRxne && getBit s.cr2 s.cfg.cr2Rxneie) || (flag s s.cfg.srTxe && getBit s.cr2 s.cfg.cr2Txeie)
      || ((flag s s.cfg.srOvr || flag s s.cfg.srUdr) && getBit s.cr2 s.cfg.cr2Errie))
  /-- I8: every bit of sr but the five named ones is 0. -/
  unnamed : ∀ b, b ∉ [s.cfg.srRxne, s.cfg.srTxe, s.cfg.srUdr, s.cfg.srOvr, s.cfg.srBsy] → flag s b = false

/-- One use of a FIFO primitive (spec/41_fifo_pair.md R103, R104). -/
inductive FifoOp where
  | push (b : Byte)
  | pop
deriving DecidableEq, Repr

/-- A FIFO with the bytes successfully pushed into it and successfully popped from it, in order. -/
structure FifoTrace where
  queue : List Byte
  pushed : List Byte
  popped : List Byte
deriving DecidableEq, Repr

/-- One primitive applied to a FIFO, its outcome recorded. -/
def FifoTrace.apply (cap : Nat) (f : FifoTrace) (op : FifoOp) : FifoTrace :=
  match op with
  | .push b =>
    let (q, ok) := fifoPush cap f.queue b
    { f with queue := q, pushed := if ok then f.pushed ++ [b] else f.pushed }
  | .pop =>
    let (q, b, ok) := fifoPop f.queue
    { f with queue := q, popped := if ok then f.popped ++ [b] else f.popped }

/-- The bytes an event hands to the bus in every state reachable from reset: the low byte of a write of DR, nothing for
any other event (spec/42_data_register_and_transfer_engine.md R115). -/
def sentByte (e : Event) : Option Byte :=
  match decode e with
  | .writeDr w => some (w.extractLsb' 0 8)
  | .reset | .readCr1 | .writeCr1 _ | .readCr2 | .writeCr2 _ | .readSr | .writeSr _ | .readDr | .readCsctrl
  | .writeCsctrl _ | .readBad _ | .writeBad _ _ => none

end Sys2Proof.Machine
end

