-- ==== Sys2Proof/Certificates/Slice0/Obligations.lean ====
section
/-! DEFINITION. The statements for the provers. Each says which rule or section of the spec it formalises; where it rests
on a choice of the model or on a decision the spec marks as its own, it names the log entry or the decision. -/

open Sys2Proof Sys2Proof.Machine

/-! ### Events and their selection -/

/-- Every well-formed operation, with every operand, is what its event selects (spec/30_encoding.md sections 1 and 2). -/
def Obligations.DecodeOfEncodeIsTheOperation : Prop :=
  ∀ i : Instr, i.wellFormed = true → decode (encode i) = i

/-- Every event selects a well-formed operation: a bad-offset one only for an offset that is no register's. -/
def Obligations.DecodedOperationIsWellFormed : Prop :=
  ∀ e : Event, (decode e).wellFormed = true

/-- An operation's event is the event it was selected by, but for the bits R70 and R71 say are ignored: bits 12:0 of a
reset's selector and the write data of a reset and of a read. -/
def Obligations.EncodeOfDecodeIsCanonical : Prop :=
  ∀ e : Event, encode (decode e) = e.canonical

/-- R72: the operation is that of the first row, in order of priority, whose `(sel & mask) = match` holds; some row always
matches; rows 1 to 11 exclude one another; the two default rows stated without priorities; 4091 offsets for each. -/
def Obligations.SelectionIsTheFirstMatchingRow : Prop :=
  (∀ e : Event, ∃ r, selectRow e.sel = some r ∧ r.operation = (decode e).operation) ∧
  (∀ (sel : Selector) (r q : SelectionRow), r ∈ selectionTable.take 11 → q ∈ selectionTable.take 11 →
    r.hits sel = true → q.hits sel = true → r = q) ∧
  (∀ e : Event, (decode e).operation = .readBad ↔
    e.rst = false ∧ e.rw = false ∧ e.offset ∉ ([0x000, 0x004, 0x008, 0x00C, 0x010] : List Offset)) ∧
  (∀ e : Event, (decode e).operation = .writeBad ↔
    e.rst = false ∧ e.rw = true ∧ e.offset ∉ ([0x000, 0x004, 0x008, 0x00C, 0x010] : List Offset)) ∧
  ((List.range 0x1000).filter fun n => !([0x000, 0x004, 0x008, 0x00C, 0x010] : List Nat).contains n).length = 4091

/-- Selectors written out from R71 and R72, one or more for every family. -/
def Obligations.SampleSelectorsSelect : Prop :=
  decode ⟨0x2000#14, 0⟩ = .reset ∧ decode ⟨0x0000#14, 0⟩ = .readCr1 ∧
  decode ⟨0x1004#14, 0x80⟩ = .writeCr2 0x80 ∧ decode ⟨0x1008#14, 0x0C⟩ = .writeSr 0x0C ∧
  decode ⟨0x000C#14, 0⟩ = .readDr ∧ decode ⟨0x100C#14, 0x9F⟩ = .writeDr 0x9F ∧
  decode ⟨0x1010#14, 0x13⟩ = .writeCsctrl 0x13 ∧ decode ⟨0x000D#14, 0⟩ = .readBad 0x00D ∧
  decode ⟨0x1014#14, 0x11⟩ = .writeBad 0x014 0x11 ∧ decode ⟨0x2010#14, 0⟩ = .reset

/-- Decoding uses the selector and nothing else: events that differ in their write data select the same row. -/
def Obligations.SelectionIgnoresTheWriteData : Prop :=
  ∀ (sel : Selector) (v w : Word), (decode ⟨sel, v⟩).operation = (decode ⟨sel, w⟩).operation

/-- The model's event word (log entry 8, DESIGN CHOICE) loses nothing: an event's word gives back its operation. -/
def Obligations.EventWordSelectsTheOperation : Prop :=
  ∀ e : Event, e.toBits < 2 ^ 46 ∧ decodeWord e.toBits = .ok (decode e)

/-! ### The step -/

/-- A step serves the oldest event: it is exec of that event's operation on the state without the event, with nothing
around it (log entry 1). -/
def Obligations.StepServesTheOldestEvent : Prop :=
  ∀ (s : State) (e : Event) (rest : List Event), configLegal s.cfg = true → s.events = e :: rest →
    step s = exec (decode e) { s with events := rest }

/-- With no event issued nothing happens (log entry 1, DESIGN CHOICE: an idle step; spec/00_scope.md section 6). -/
def Obligations.StepWithoutEventChangesNothing : Prop :=
  ∀ s : State, configLegal s.cfg = true → s.events = [] → step s = .next s

/-- A configuration outside the legal ranges is refused, by the step and at creation (spec/44_chip_select.md section 2; the
spec's decision D14, log entry 4). -/
def Obligations.IllegalConfigurationIsRefused : Prop :=
  (∀ s : State, configLegal s.cfg = false → step s = .refused .illegalConfig) ∧
  (∀ (c : Config) (b : Bus), configLegal c = false → attach c b = .refused .illegalConfig) ∧
  (∀ c : Config, c.numLines = 0 ∨ 4 < c.numLines → configLegal c = false) ∧
  (∀ c : Config, c.fifoCapacity = 0 → configLegal c = false)

/-- R186: no operation faults in any state, every access completes, and a read returns a value; nor does any state make a
later event stop. -/
def Obligations.EveryOperationCompletes : Prop :=
  (∀ (i : Instr) (s : State), ∃ t, exec i s = .next t ∧
    (i.operation.isRead = true → ∃ v, t.result = some v) ∧ (i.operation.isRead = false → t.result = none)) ∧
  (∀ s : State, configLegal s.cfg = true → ∃ t, step s = .next t)

/-! ### Invariants -/

/-- The invariants hold at reset. -/
def Obligations.ResetStateMeetsTheInvariants : Prop := State.reset.Inv

/-- They hold when a controller is created, whatever its legal configuration and its bus, a reference slave with
legal parameters (spec/10_state.md sections 6 to
8; SR's unnamed bits and BSY by the spec's decision D8, the outputs by D16, log entry 10). -/
def Obligations.CreatedStateMeetsTheInvariants : Prop :=
  ∀ (c : Config) (b : Bus), configLegal c = true → b.legal = true →
    ∃ s, attach c b = .next s ∧ s = State.create c b ∧ s.Inv

/-- Every step keeps I1 to I8 of spec/10_state.md section 7, from every state that meets them. -/
def Obligations.StepKeepsTheInvariants : Prop :=
  ∀ s t : State, s.Inv → step s = .next t → t.Inv

/-- I9: the value of sr is determined by rx_fifo, OVR and UDR (spec/10_state.md section 7). -/
def Obligations.StatusValueIsDetermined : Prop :=
  ∀ s : State, s.Inv →
    s.sr = ((((if 0 < s.rxFifo.length then 1#32 <<< s.cfg.srRxne.val else 0) ||| 1#32 <<< s.cfg.srTxe.val)
      ||| (if flag s s.cfg.srOvr = true then 1#32 <<< s.cfg.srOvr.val else 0))
      ||| (if flag s s.cfg.srUdr = true then 1#32 <<< s.cfg.srUdr.val else 0))

/-- Under the reference layout (log entry 3, PRESUMED positions) READ_SR returns one of eight values
(spec/43_control_and_status_registers.md section 3). -/
def Obligations.StatusReadsOneOfEightValues : Prop :=
  ∀ s : State, s.Inv → s.cfg = referenceConfig →
    ∃ t v, exec .readSr s = .next t ∧ t.result = some v ∧
      v ∈ ([0x02, 0x03, 0x06, 0x07, 0x0A, 0x0B, 0x0E, 0x0F] : List Word)

/-- The configuration is never changed, in no state and by no event (spec/00_scope.md section 5; log entry 3). -/
def Obligations.ConfigurationNeverChanges : Prop :=
  ∀ s t : State, step s = .next t → t.cfg = s.cfg

/-- No operation takes a FIFO above its capacity, from every state within the bounds (spec/41_fifo_pair.md section 1). -/
def Obligations.FifoBoundsAreKept : Prop :=
  ∀ (i : Instr) (s : State), s.txFifo.length ≤ s.cfg.fifoCapacity → s.rxFifo.length ≤ s.cfg.fifoCapacity →
    ∃ t, exec i s = .next t ∧ t.txFifo.length ≤ s.cfg.fifoCapacity ∧ t.rxFifo.length ≤ s.cfg.fifoCapacity

/-! ### FIFO primitives -/

/-- R103: a push on a full queue leaves it as it was, drops the byte and is not ok; any other appends and is ok. -/
def Obligations.PushAppendsOrDropsTheNewByte : Prop :=
  ∀ (cap : Nat) (q : List Byte) (b : Byte),
    fifoPush cap q b = if q.length = cap then (q, false) else (q ++ [b], true)

/-- R104: a pop of an empty queue gives (0x00, false) and leaves it; any other removes and gives the oldest byte. -/
def Obligations.PopTakesTheOldestByte : Prop :=
  (fifoPop [] = ([], 0x00, false)) ∧ (∀ (b : Byte) (q : List Byte), fifoPop (b :: q) = (q, b, true))

/-- R106: whatever pushes and pops are made, the bytes popped, followed by the bytes still queued, are the bytes that were
queued at first followed by the successfully pushed ones, in order. -/
def Obligations.FifoKeepsTheOrder : Prop :=
  ∀ (cap : Nat) (q : List Byte) (ops : List FifoOp),
    let f := ops.foldl (FifoTrace.apply cap) ⟨q, [], []⟩
    f.popped ++ f.queue = q ++ f.pushed

/-! ### The shared procedures -/

/-- R180: `InterruptCombinator()` makes TXE and RXNE what the FIFOs hold and recomputes the line as a whole by the formula
over the refreshed bits and cr2; it changes nothing else. -/
def Obligations.CombinatorRefreshesStatusAndLine : Prop :=
  ∀ s : State, configLegal s.cfg = true →
    let t := interruptCombinator s
    t = { s with sr := t.sr, irqOut := t.irqOut } ∧ SrBitsKept s t [s.cfg.srTxe, s.cfg.srRxne] ∧ EpilogueDone t

/-- Every access, from every state, ends with TXE, RXNE and the line as the combinator gives them; RESET sets sr to TXE alone
and the line to 0 (spec/40_register_decode.md section 1; the values of RESET by the spec's decisions D8 and D16, log
entry 10). -/
def Obligations.EveryAccessEndsInTheCombinator : Prop :=
  (∀ (i : Instr) (s : State), i ≠ .reset →
    ∃ h t, exec i s = .next t ∧ t = interruptCombinator h ∧ h.irqOut = s.irqOut ∧ h.cfg = s.cfg ∧
      (configLegal s.cfg = true → EpilogueDone t)) ∧
  (∀ s : State, ∃ t, exec .reset s = .next t ∧ t.sr = 1#32 <<< s.cfg.srTxe.val ∧ t.irqOut = false)

/-- R152: `ChipSelectUpdate()` drives each of the NUM_LINES lines to EN[i] and ACT[i] and changes nothing else. -/
def Obligations.ChipSelectUpdateDrivesEveryLine : Prop :=
  ∀ s : State, configLegal s.cfg = true →
    let t := chipSelectUpdate s
    t = { s with csOut := t.csOut } ∧ t.csOut.length = s.cfg.numLines ∧
    ∀ i, i < s.cfg.numLines → t.csOut[i]? = some (s.csctrl.getLsbD i && s.csctrl.getLsbD (4 + i))

/-- The engine on any tx_fifo (spec/42_data_register_and_transfer_engine.md section 2; the order inside an iteration is the
spec's decision D25, log entry 10): one transfer a byte, oldest first, all with the lines as they stand; the answers
queue in rx_fifo as far as there is room; OVR is set exactly if one was dropped (or was set before); tx_fifo ends empty,
BSY 0, TXE 1; nothing else changes. -/
def Obligations.EngineDrainsInOrder : Prop :=
  ∀ s : State, configLegal s.cfg = true → s.rxFifo.length ≤ s.cfg.fifoCapacity →
    ∃ new : List BusTransfer,
      let t := transferEngine s
      t = { s with txFifo := [], rxFifo := t.rxFifo, bus := t.bus, sr := t.sr } ∧
      t.bus.log = s.bus.log ++ new ∧ new.map (·.sent) = s.txFifo ∧ (∀ x ∈ new, x.cs = s.csOut) ∧
      t.rxFifo = (s.rxFifo ++ new.map (·.answer)).take s.cfg.fifoCapacity ∧
      flag t s.cfg.srOvr = (flag s s.cfg.srOvr || decide (s.cfg.fifoCapacity < s.rxFifo.length + s.txFifo.length)) ∧
      flag t s.cfg.srBsy = false ∧ flag t s.cfg.srTxe = true ∧
      SrBitsKept s t [s.cfg.srOvr, s.cfg.srBsy, s.cfg.srTxe]

/-! ### Each operation: where it completes, its result and its frame -/

/-- R130: READ_CR1 returns all of cr1; the epilogue runs; nothing else changes, and at a quiescent point nothing at all. -/
def Obligations.ReadCr1ReturnsCr1 : Prop :=
  (∀ w : Word, decode ⟨0x0000#14, w⟩ = .readCr1) ∧
  (∀ s : State, configLegal s.cfg = true → ∃ t, exec .readCr1 s = .next t ∧
    t = { s with sr := t.sr, irqOut := t.irqOut, result := some s.cr1, diag := none } ∧
    SrBitsKept s t [s.cfg.srTxe, s.cfg.srRxne] ∧ EpilogueDone t) ∧
  (∀ s : State, s.Inv → exec .readCr1 s = .next { s with result := some s.cr1, diag := none }) ∧
  (∃ t, exec .readCr1 State.reset = .next t ∧ t.result = some 0x00000000) ∧
  (∀ (s : State) (w : Word), ∃ t u, exec (.writeCr1 w) s = .next t ∧ exec .readCr1 t = .next u ∧ u.result = some w)

/-- WRITE_CR1 stores all 32 bits and does nothing else (spec/43_control_and_status_registers.md section 1; all 32 bits by
the spec's decision D10, without effect by D18, log entry 10). -/
def Obligations.WriteCr1StoresAndDoesNothingElse : Prop :=
  (∀ w : Word, decode ⟨0x1000#14, w⟩ = .writeCr1 w) ∧
  (∀ (s : State) (w : Word), configLegal s.cfg = true → ∃ t, exec (.writeCr1 w) s = .next t ∧
    t = { s with cr1 := w, sr := t.sr, irqOut := t.irqOut, result := none, diag := none } ∧
    SrBitsKept s t [s.cfg.srTxe, s.cfg.srRxne] ∧ EpilogueDone t) ∧
  (∀ (s : State) (w : Word), s.Inv → exec (.writeCr1 w) s = .next { s with cr1 := w, result := none, diag := none })

/-- R132: READ_CR2 returns all of cr2; the epilogue runs; nothing else changes, and at a quiescent point nothing at all. -/
def Obligations.ReadCr2ReturnsCr2 : Prop :=
  (∀ w : Word, decode ⟨0x0004#14, w⟩ = .readCr2) ∧
  (∀ s : State, configLegal s.cfg = true → ∃ t, exec .readCr2 s = .next t ∧
    t = { s with sr := t.sr, irqOut := t.irqOut, result := some s.cr2, diag := none } ∧
    SrBitsKept s t [s.cfg.srTxe, s.cfg.srRxne] ∧ EpilogueDone t) ∧
  (∀ s : State, s.Inv → exec .readCr2 s = .next { s with result := some s.cr2, diag := none }) ∧
  (∃ t, exec .readCr2 State.reset = .next t ∧ t.result = some 0x00000000) ∧
  (∀ (s : State) (w : Word), ∃ t u, exec (.writeCr2 w) s = .next t ∧ exec .readCr2 t = .next u ∧ u.result = some w)

/-- WRITE_CR2 stores all 32 bits, and the line has at once the level of the formula over the new enables
(spec/43_control_and_status_registers.md section 2; all 32 bits by the spec's decision D10, log entry 10). -/
def Obligations.WriteCr2ActsAtOnce : Prop :=
  (∀ w : Word, decode ⟨0x1004#14, w⟩ = .writeCr2 w) ∧
  (∀ (s : State) (w : Word), configLegal s.cfg = true → ∃ t, exec (.writeCr2 w) s = .next t ∧
    t = { s with cr2 := w, sr := t.sr, irqOut := t.irqOut, result := none, diag := none } ∧
    SrBitsKept s t [s.cfg.srTxe, s.cfg.srRxne] ∧ EpilogueDone t) ∧
  (∀ (s : State) (w : Word), s.Inv → ∃ t, exec (.writeCr2 w) s = .next t ∧
    t = { s with cr2 := w, irqOut := t.irqOut, result := none, diag := none } ∧
    t.irqOut = (getBit w s.cfg.cr2Txeie || (decide (0 < s.rxFifo.length) && getBit w s.cfg.cr2Rxneie)
      || ((flag s s.cfg.srOvr || flag s s.cfg.srUdr) && getBit w s.cfg.cr2Errie)))

/-- READ_SR returns the stored sr, fresh at every quiescent point, and clears nothing
(spec/43_control_and_status_registers.md section 3; when TXE and RXNE are sampled is the spec's decision D26). -/
def Obligations.ReadSrReturnsSrAndClearsNothing : Prop :=
  (∀ w : Word, decode ⟨0x0008#14, w⟩ = .readSr) ∧
  (∀ s : State, configLegal s.cfg = true → ∃ t, exec .readSr s = .next t ∧
    t = { s with sr := t.sr, irqOut := t.irqOut, result := some s.sr, diag := none } ∧
    SrBitsKept s t [s.cfg.srTxe, s.cfg.srRxne] ∧ EpilogueDone t) ∧
  (∀ s : State, s.Inv → exec .readSr s = .next { s with result := some s.sr, diag := none } ∧
    getBit s.sr s.cfg.srBsy = false ∧ getBit s.sr s.cfg.srTxe = true)

/-- R135: WRITE_SR clears OVR and UDR where the data has a 1, sets nothing, keeps every other bit but the two derived ones
the epilogue recomputes, and touches nothing else; at a quiescent point no other bit changes, a write of 0 changes
nothing, and while rx_fifo is full the next WRITE_DR sets OVR again. -/
def Obligations.WriteSrClearsWhereWrittenOne : Prop :=
  (∀ w : Word, decode ⟨0x1008#14, w⟩ = .writeSr w) ∧
  (∀ (s : State) (w : Word), configLegal s.cfg = true → ∃ t, exec (.writeSr w) s = .next t ∧
    t = { s with sr := t.sr, irqOut := t.irqOut, result := none, diag := none } ∧
    flag t s.cfg.srOvr = (flag s s.cfg.srOvr && !getBit w s.cfg.srOvr) ∧
    flag t s.cfg.srUdr = (flag s s.cfg.srUdr && !getBit w s.cfg.srUdr) ∧
    SrBitsKept s t [s.cfg.srOvr, s.cfg.srUdr, s.cfg.srTxe, s.cfg.srRxne] ∧ EpilogueDone t) ∧
  (∀ (s : State) (w : Word), s.Inv → ∃ t, exec (.writeSr w) s = .next t ∧
    SrBitsKept s t [s.cfg.srOvr, s.cfg.srUdr] ∧ (∀ b, flag t b = true → flag s b = true) ∧
    (s.rxFifo.length = s.cfg.fifoCapacity → ∀ v, ∃ u, exec (.writeDr v) t = .next u ∧ flag u s.cfg.srOvr = true)) ∧
  (∀ s : State, s.Inv → exec (.writeSr 0x00000000) s = .next { s with result := none, diag := none })

/-- R111: READ_DR pops rx_fifo and returns the byte zero-extended, or sets UDR and returns 0; the epilogue runs; tx_fifo,
the bus and everything else stay. -/
def Obligations.ReadDrPopsOrUnderruns : Prop :=
  (∀ w : Word, decode ⟨0x000C#14, w⟩ = .readDr) ∧
  (∀ s : State, configLegal s.cfg = true → ∃ t, exec .readDr s = .next t ∧
    t = { s with
      rxFifo := s.rxFifo.tail
      sr := t.sr
      irqOut := t.irqOut
      result := some (match s.rxFifo with | [] => 0x00000000 | b :: _ => BitVec.setWidth 32 b)
      diag := none } ∧
    flag t s.cfg.srUdr = (flag s s.cfg.srUdr || s.rxFifo.isEmpty) ∧
    SrBitsKept s t [s.cfg.srUdr, s.cfg.srTxe, s.cfg.srRxne] ∧ EpilogueDone t) ∧
  (∀ s : State, s.Inv → ∃ t, exec .readDr s = .next t ∧ SrBitsKept s t [s.cfg.srUdr, s.cfg.srRxne])

/-- WRITE_DR at a quiescent point: exactly one transfer, of the low byte, with the lines as they stand; the answer is queued,
or dropped with OVR set when rx_fifo is full; RXNE and TXE are 1 and BSY 0 after it; the epilogue runs; nothing else
changes (spec/42_data_register_and_transfer_engine.md sections 1 and 2; the low byte is the spec's decision D11). In
every other state of a legal configuration the same frame, with tx_fifo drained. -/
def Obligations.WriteDrTransfersOneByte : Prop :=
  (∀ w : Word, decode ⟨0x100C#14, w⟩ = .writeDr w) ∧
  (∀ (s : State) (w : Word), s.Inv →
    let a := busTransfer s.bus s.csOut (w.extractLsb' 0 8)
    ∃ t, exec (.writeDr w) s = .next t ∧
      t = { s with
        rxFifo := if s.rxFifo.length = s.cfg.fifoCapacity then s.rxFifo else s.rxFifo ++ [a.2]
        bus := a.1
        sr := t.sr
        irqOut := t.irqOut
        result := none
        diag := none } ∧
      a.1.log = s.bus.log ++ [⟨s.csOut, w.extractLsb' 0 8, a.2⟩] ∧
      flag t s.cfg.srOvr = (flag s s.cfg.srOvr || decide (s.rxFifo.length = s.cfg.fifoCapacity)) ∧
      flag t s.cfg.srRxne = true ∧
      SrBitsKept s t [s.cfg.srOvr, s.cfg.srRxne] ∧ EpilogueDone t) ∧
  (∀ (s : State) (w : Word), configLegal s.cfg = true → ∃ t, exec (.writeDr w) s = .next t ∧
    t = { s with
      txFifo := []
      rxFifo := t.rxFifo
      bus := t.bus
      sr := t.sr
      irqOut := t.irqOut
      result := none
      diag := none } ∧
    flag t s.cfg.srBsy = false ∧ flag t s.cfg.srTxe = true ∧
    SrBitsKept s t [s.cfg.srOvr, s.cfg.srBsy, s.cfg.srTxe, s.cfg.srRxne] ∧ EpilogueDone t)

/-- WRITE_DR with tx_fifo full, a state no run reaches: only the new byte is lost, OVR is set, the queued bytes are sent in
order and their answers queued as far as there is room (spec/42_data_register_and_transfer_engine.md section 1; the
spec's decision D12, log entry 10). -/
def Obligations.WriteDrOnFullTxDropsOnlyTheNewByte : Prop :=
  ∀ (s : State) (w : Word), configLegal s.cfg = true → s.txFifo.length = s.cfg.fifoCapacity →
    s.rxFifo.length ≤ s.cfg.fifoCapacity →
    ∃ t new, exec (.writeDr w) s = .next t ∧ t.txFifo = [] ∧ flag t s.cfg.srOvr = true ∧
      t.bus.log = s.bus.log ++ new ∧ new.map (·.sent) = s.txFifo ∧
      t.rxFifo = (s.rxFifo ++ new.map (·.answer)).take s.cfg.fifoCapacity

/-- R150: READ_CSCTRL returns all of csctrl and does not redrive the lines; the epilogue runs; nothing else changes. -/
def Obligations.ReadCsctrlReturnsCsctrl : Prop :=
  (∀ w : Word, decode ⟨0x0010#14, w⟩ = .readCsctrl) ∧
  (∀ s : State, configLegal s.cfg = true → ∃ t, exec .readCsctrl s = .next t ∧
    t = { s with sr := t.sr, irqOut := t.irqOut, result := some s.csctrl, diag := none } ∧
    SrBitsKept s t [s.cfg.srTxe, s.cfg.srRxne] ∧ EpilogueDone t) ∧
  (∀ s : State, s.Inv → exec .readCsctrl s = .next { s with result := some s.csctrl, diag := none }) ∧
  (∃ t, exec .readCsctrl State.reset = .next t ∧ t.result = some 0x00000000) ∧
  (∀ (s : State) (w : Word),
    ∃ t u, exec (.writeCsctrl w) s = .next t ∧ exec .readCsctrl t = .next u ∧ u.result = some w)

/-- WRITE_CSCTRL stores all 32 bits and drives every line to EN[i] and ACT[i] of the new value; at a quiescent point nothing
else changes; the pins are the complement (spec/44_chip_select.md; all 32 bits by the spec's decision D10, the meaning
of the active nibble and the polarity by D15, log entry 10). -/
def Obligations.WriteCsctrlDrivesTheLines : Prop :=
  (∀ w : Word, decode ⟨0x1010#14, w⟩ = .writeCsctrl w) ∧
  (∀ (s : State) (w : Word), configLegal s.cfg = true → ∃ t, exec (.writeCsctrl w) s = .next t ∧
    t = { s with
      csctrl := w
      csOut := t.csOut
      sr := t.sr
      irqOut := t.irqOut
      result := none
      diag := none } ∧
    t.csOut.length = s.cfg.numLines ∧
    (∀ i, i < s.cfg.numLines → t.csOut[i]? = some (w.getLsbD i && w.getLsbD (4 + i))) ∧
    (∀ i, i < s.cfg.numLines → (pinLevels t)[i]? = some (!(w.getLsbD i && w.getLsbD (4 + i)))) ∧
    SrBitsKept s t [s.cfg.srTxe, s.cfg.srRxne] ∧ EpilogueDone t) ∧
  (∀ (s : State) (w : Word), s.Inv → ∃ t, exec (.writeCsctrl w) s = .next t ∧
    t = { s with csctrl := w, csOut := t.csOut, result := none, diag := none })

/-- READ_BAD returns 0 and reports; the epilogue runs; at a quiescent point nothing changes (spec/40_register_decode.md
section 3, whose "nothing changes" the spec marks as derived). -/
def Obligations.ReadBadReturnsZeroAndReports : Prop :=
  (∀ (o : Offset) (w : Word), isRegisterOffset o = false → decode ⟨selectorOf false false o, w⟩ = .readBad o) ∧
  (∀ (s : State) (o : Offset), configLegal s.cfg = true → ∃ t, exec (.readBad o) s = .next t ∧
    t = { s with sr := t.sr, irqOut := t.irqOut, result := some 0x00000000, diag := some ⟨.read, o⟩ } ∧
    SrBitsKept s t [s.cfg.srTxe, s.cfg.srRxne] ∧ EpilogueDone t) ∧
  (∀ (s : State) (o : Offset), s.Inv →
    exec (.readBad o) s = .next { s with result := some 0x00000000, diag := some ⟨.read, o⟩ })

/-- WRITE_BAD discards the value and reports; the epilogue runs; at a quiescent point nothing changes
(spec/40_register_decode.md section 3). -/
def Obligations.WriteBadDiscardsAndReports : Prop :=
  (∀ (o : Offset) (w : Word), isRegisterOffset o = false → decode ⟨selectorOf false true o, w⟩ = .writeBad o w) ∧
  (∀ (s : State) (o : Offset) (w : Word), configLegal s.cfg = true → ∃ t, exec (.writeBad o w) s = .next t ∧
    t = { s with sr := t.sr, irqOut := t.irqOut, result := none, diag := some ⟨.write, o⟩ } ∧
    SrBitsKept s t [s.cfg.srTxe, s.cfg.srRxne] ∧ EpilogueDone t) ∧
  (∀ (s : State) (o : Offset) (w : Word), s.Inv →
    exec (.writeBad o w) s = .next { s with result := none, diag := some ⟨.write, o⟩ })

/-- RESET gives every piece of the block's state its reset value and leaves the configuration, the bus and the events alone
(spec/70_reset_and_hazards.md section 1; SR's number by the spec's decision D8, the outputs by D16, log entry 10). It is
selected by every selector with rst = 1. -/
def Obligations.ResetGivesTheResetValues : Prop :=
  (∀ (sel : Selector) (w : Word), sel.getLsbD 13 = true → decode ⟨sel, w⟩ = .reset) ∧
  (∀ s : State, exec .reset s = .next
    { cfg := s.cfg
      cr1 := 0x00000000
      cr2 := 0x00000000
      sr := 1#32 <<< s.cfg.srTxe.val
      csctrl := 0x00000000
      txFifo := []
      rxFifo := []
      irqOut := false
      csOut := List.replicate s.cfg.numLines false
      bus := s.bus
      events := s.events
      result := none
      diag := none })

/-- The state after reset in the reference configuration, field by field (spec/10_state.md section 6; sr's number and the
outputs by the spec's decisions D8 and D16, log entry 10; configuration and bus by log entries 3 and 5). -/
def Obligations.ResetStateHasTheResetValues : Prop :=
  State.reset.cr1 = 0x00000000 ∧ State.reset.cr2 = 0x00000000 ∧ State.reset.csctrl = 0x00000000 ∧
  State.reset.sr = 0x00000002 ∧ State.reset.txFifo = [] ∧ State.reset.rxFifo = [] ∧
  State.reset.irqOut = false ∧ State.reset.csOut = [false, false, false, false]

/-! ### Rules about the whole machine -/

/-- R31: the lines change only in WRITE_CSCTRL, which drives them at once, and in RESET; no other operation, and no step
without an event, moves them. -/
def Obligations.LinesMoveOnlyOnWriteCsctrlAndReset : Prop :=
  (∀ (i : Instr) (s : State), i.operation ≠ .writeCsctrl → i.operation ≠ .reset →
    ∃ t, exec i s = .next t ∧ t.csOut = s.csOut) ∧
  (∀ (s : State) (w : Word), configLegal s.cfg = true → ∃ t, exec (.writeCsctrl w) s = .next t ∧
    ∀ i, i < s.cfg.numLines → t.csOut[i]? = some (w.getLsbD i && w.getLsbD (4 + i))) ∧
  (∀ s t : State, s.events = [] → step s = .next t → t.csOut = s.csOut)

/-- R113: a WRITE_DR triggers the engine, and nothing else does: no other operation, no reset and no step without an event
reaches the bus. -/
def Obligations.OnlyWriteDrReachesTheBus : Prop :=
  (∀ (i : Instr) (s : State), i.operation ≠ .writeDr → ∃ t, exec i s = .next t ∧ t.bus = s.bus) ∧
  (∀ s t : State, s.events = [] → step s = .next t → t.bus = s.bus) ∧
  (∀ (s : State) (w : Word), s.Inv → ∃ t, exec (.writeDr w) s = .next t ∧ t.bus.log.length = s.bus.log.length + 1)

/-- OVR and UDR are sticky: among all operations only WRITE_SR (where written 1) and RESET clear them; only WRITE_DR sets
OVR and only READ_DR sets UDR (spec/10_state.md section 2, spec/60_exceptions.md section 2). -/
def Obligations.ErrorFlagsAreSticky : Prop :=
  ∀ (i : Instr) (s : State), configLegal s.cfg = true → ∃ t, exec i s = .next t ∧
    (flag s s.cfg.srOvr = true → flag t s.cfg.srOvr = true ∨ i = .reset ∨
      ∃ w, i = .writeSr w ∧ getBit w s.cfg.srOvr = true) ∧
    (flag s s.cfg.srUdr = true → flag t s.cfg.srUdr = true ∨ i = .reset ∨
      ∃ w, i = .writeSr w ∧ getBit w s.cfg.srUdr = true) ∧
    (flag s s.cfg.srOvr = false → flag t s.cfg.srOvr = false ∨ ∃ w, i = .writeDr w) ∧
    (flag s s.cfg.srUdr = false → flag t s.cfg.srUdr = false ∨ i = .readDr)

/-- The diagnostic is bad_offset exactly for the two bad-offset operations, none for every other
(spec/40_register_decode.md section 4; the spec's decision D19, log entry 9). -/
def Obligations.DiagnosticExactlyForBadOffsets : Prop :=
  ∀ (i : Instr) (s : State), ∃ t, exec i s = .next t ∧
    (∀ o, i = .readBad o → t.diag = some ⟨.read, o⟩) ∧ (∀ o w, i = .writeBad o w → t.diag = some ⟨.write, o⟩) ∧
    (i.operation ≠ .readBad → i.operation ≠ .writeBad → t.diag = none)

/-- Every access but READ_DR and WRITE_DR, and a reset too, is idempotent: made again at once it returns the same and
changes nothing (spec/20_memory.md section 3, spec/70_reset_and_hazards.md section 1). -/
def Obligations.OperationsButOnDrAreIdempotent : Prop :=
  ∀ (i : Instr) (s : State), i.operation ≠ .readDr → i.operation ≠ .writeDr → s.Inv →
    ∃ t, exec i s = .next t ∧ exec i t = .next t

/-- With TXEIE set the line is 1 at every quiescent point; with all three enables clear it is 0 (spec/10_state.md section
7, spec/60_exceptions.md section 1). -/
def Obligations.TransmitEnableHoldsTheLine : Prop :=
  ∀ s : State, s.Inv →
    (getBit s.cr2 s.cfg.cr2Txeie = true → s.irqOut = true) ∧
    (getBit s.cr2 s.cfg.cr2Txeie = false → getBit s.cr2 s.cfg.cr2Rxneie = false → getBit s.cr2 s.cfg.cr2Errie = false →
      s.irqOut = false)

/-- What is in cr1 influences nothing but what READ_CR1 returns (spec/10_state.md section 2; the spec's decision D18). -/
def Obligations.Cr1InfluencesNothing : Prop :=
  ∀ (i : Instr) (s : State) (v : Word), i.operation ≠ .readCr1 →
    ∃ t, exec i s = .next t ∧
      exec i { s with cr1 := v } =
        .next { t with cr1 := if i.operation = .writeCr1 ∨ i.operation = .reset then t.cr1 else v }

/-- The engine looks at no control register: what a WRITE_DR sends, queues and flags is the same whatever cr1, cr2 and
csctrl hold (spec/42_data_register_and_transfer_engine.md section 2; the spec's decision D18). -/
def Obligations.TransferIgnoresTheControlRegisters : Prop :=
  ∀ (s : State) (w c1 c2 cs : Word),
    ∃ t u, exec (.writeDr w) s = .next t ∧ exec (.writeDr w) { s with cr1 := c1, cr2 := c2, csctrl := cs } = .next u ∧
      u = { t with cr1 := c1, cr2 := c2, csctrl := cs, irqOut := u.irqOut }

/-- SSOE has no function: two runs that differ only in that bit of cr2 differ in nothing but that bit and what READ_CR2
returns (spec/44_chip_select.md section 2; the spec's decision D18). -/
def Obligations.SsoeHasNoFunction : Prop :=
  ∀ (i : Instr) (s : State) (x : Bool), configLegal s.cfg = true → i.operation ≠ .readCr2 →
    ∃ t, exec i s = .next t ∧
      exec i { s with cr2 := setBit s.cr2 s.cfg.cr2Ssoe x } =
        .next { t with cr2 := if i.operation = .writeCr2 ∨ i.operation = .reset then t.cr2
                              else setBit t.cr2 s.cfg.cr2Ssoe x }

/-- What the environment answers reaches nothing but the bytes in rx_fifo: with any other bus an operation leaves the same
registers, flags, lines and FIFO counts, and sends the same bytes (spec/45_bus_and_slave.md section 1). -/
def Obligations.BusAnswersReachOnlyTheReceiveFifo : Prop :=
  ∀ (i : Instr) (s : State) (env : BusEnv),
    ∃ t u, exec i s = .next t ∧ exec i { s with bus := ⟨env, s.bus.log⟩ } = .next u ∧
      u = { t with bus := u.bus, rxFifo := u.rxFifo } ∧ u.rxFifo.length = t.rxFifo.length ∧
      u.bus.log.map (fun x => (x.cs, x.sent)) = t.bus.log.map (fun x => (x.cs, x.sent))

/-- Reset forgets: its result does not depend on the block's state before it, and is the state of creation but for the bus
and the pending events (spec/70_reset_and_hazards.md section 1; the spec's decision D17). -/
def Obligations.ResetForgetsTheBlock : Prop :=
  (∀ s t : State, s.cfg = t.cfg → s.bus = t.bus → s.events = t.events → exec .reset s = exec .reset t) ∧
  (∀ (s : State) (b : Bus), exec .reset s = .next { State.create s.cfg b with bus := s.bus, events := s.events })

/-! ### Sequences of events -/

/-- Round trip: with rx_fifo empty, WRITE_DR of a byte and then READ_DR returns what the bus answers to that byte in its
state at that moment, and leaves rx_fifo empty (spec/42_data_register_and_transfer_engine.md section 2). -/
def Obligations.RoundTripReturnsTheAnswer : Prop :=
  ∀ (s : State) (w : Word), s.Inv → s.rxFifo = [] →
    ∃ t u, exec (.writeDr w) s = .next t ∧ exec .readDr t = .next u ∧
      u.result = some (BitVec.setWidth 32 (busTransfer s.bus s.csOut (w.extractLsb' 0 8)).2) ∧ u.rxFifo = [] ∧
      u.sr = s.sr

/-- For every sequence of events the bytes the bus is given are the low bytes of the WRITE_DR operations, each once, in
order, whatever else happens between (spec/42_data_register_and_transfer_engine.md section 2, spec/20_memory.md section
5). -/
def Obligations.BusSeesEveryWriteInOrder : Prop :=
  ∀ (s : State) (events : List Event), s.Inv → s.events = events →
    ∃ t, Host.Core.run core events.length s = .next t ∧ t.events = [] ∧ t.Inv ∧
      t.bus.log.map (·.sent) = s.bus.log.map (·.sent) ++ events.filterMap sentByte

/-- R136: after CLR_ERR and one READ_DR for each byte rx_fifo holds, no error flag is set, rx_fifo is empty and everything
else of the block is as it was. -/
def Obligations.ErrorRecoveryRestoresTheBlock : Prop :=
  ∀ s : State, s.Inv → s.events = clrErrEvents s.cfg ++ List.replicate s.rxFifo.length (readReg .dr) →
    ∃ t, Host.Core.run core (1 + s.rxFifo.length) s = .next t ∧ t.Inv ∧
      t = { s with
        rxFifo := []
        sr := 1#32 <<< s.cfg.srTxe.val
        irqOut := t.irqOut
        events := []
        result := t.result
        diag := none }

/-! ### The environment and the host's view -/

/-- The identity readout of the reference slave, whatever its parameters: idle and selected, it takes ID_CMD, then gives the
three identity bytes for any bytes sent, then the filler, and stays there (spec/45_bus_and_slave.md sections 2 and 3; the
reference slave is the spec's decision D21). Not selected it returns to idle and answers nothing. -/
def Obligations.SlaveGivesItsIdentityOnce : Prop :=
  ∀ (p : SlaveParams) (x y z v : Byte),
    refSlaveTransfer p .idle true p.idCmd = (.idrd 0, some p.cmdResp) ∧
    refSlaveTransfer p (.idrd 0) true x = (.idrd 1, some p.id0) ∧
    refSlaveTransfer p (.idrd 1) true y = (.idrd 2, some p.id1) ∧
    refSlaveTransfer p (.idrd 2) true z = (.idrd 3, some p.id2) ∧
    refSlaveTransfer p (.idrd 3) true v = (.idrd 3, some 0xFF) ∧
    (∀ st, refSlaveTransfer p st false x = (.idle, none))

/-- A script bus answers the k-th transfer with the k-th byte of its script, whatever was sent and whatever the lines
(spec/45_bus_and_slave.md section 3; the spec's decision D21). -/
def Obligations.ScriptBusAnswersInOrder : Prop :=
  ∀ (answers : List Byte) (log : List BusTransfer) (cs : List Bool) (sent : List Byte), sent.length ≤ answers.length →
    let b := sent.foldl (fun b t => (busTransfer b cs t).1) (⟨.script answers, log⟩ : BusState)
    b.env = .script (answers.drop sent.length) ∧
      b.log = log ++ (sent.zip answers).map (fun x => ⟨cs, x.1, x.2⟩)

/-- A host's access at BASE_ADDR + offset, offset below 0x1000, is the access event of that offset; any other address is not
delivered to the block (spec/00_scope.md section 7, spec/20_memory.md section 4; BASE_ADDR is open, log entry 14). -/
def Obligations.WindowAddressesAreOffsets : Prop :=
  (∀ (o : Offset) (v : Word), hostRead (Config.baseAddr + o.toNat) = some (.read o) ∧
    hostWrite (Config.baseAddr + o.toNat) v = some (.write o v)) ∧
  (∀ (addr : Nat) (v : Word), addr < Config.baseAddr ∨ Config.baseAddr + 0x1000 ≤ addr →
    hostRead addr = none ∧ hostWrite addr v = none)

/-- `SELECT i` asserts line i alone, for every line that exists (spec/30_encoding.md section 6). -/
def Obligations.SelectAssertsOneLine : Prop :=
  ∀ (s : State) (i : Fin 4), configLegal s.cfg = true → i.val < s.cfg.numLines → s.events = selectEvents i →
    ∃ t, step s = .next t ∧ t.events = [] ∧ ∀ j, j < s.cfg.numLines → t.csOut[j]? = some (decide (j = i.val))

/-- A controller attached to the reference bus starts with the slave idle and no transfer made, for all legal parameters;
parameters whose RD_CMDS holds ID_CMD are refused (spec/45_bus_and_slave.md section 3; the spec's decision D21, log entry
7). -/
def Obligations.ReferenceSlaveStartsIdle : Prop :=
  ∀ (c : Config) (p : SlaveParams), configLegal c = true →
    (p.idCmd ∉ p.rdCmds → ∃ s, attach c (.ref p) = .next s ∧ s.bus = ⟨.ref p .idle, []⟩) ∧
    (p.idCmd ∈ p.rdCmds → attach c (.ref p) = .refused .illegalSlave)

/-- The parameters of the reference slave are fixed: no step, a reset of the block among them, changes them or puts another
bus in its place (spec/45_bus_and_slave.md section 3, spec/70_reset_and_hazards.md section 1). -/
def Obligations.ReferenceSlaveKeepsItsParameters : Prop :=
  ∀ (s t : State) (p : SlaveParams) (st : SlaveState), s.bus.env = .ref p st → step s = .next t →
    ∃ st', t.bus.env = .ref p st'
end

