-- ==== Sys2Proof/Laws/Bits.lean ====
section
/-! SUPPORT. Reading a bit after each operation on bits. -/

namespace Sys2Proof.Machine

@[simp] theorem getBit_bitMask (b c : Fin 32) : getBit (bitMask b) c = decide (c = b) := by
  revert b c; decide

@[simp] theorem getBit_and (v w : Word) (b : Fin 32) : getBit (v &&& w) b = (getBit v b && getBit w b) := by
  simp [getBit]

@[simp] theorem getBit_or (v w : Word) (b : Fin 32) : getBit (v ||| w) b = (getBit v b || getBit w b) := by
  simp [getBit]

@[simp] theorem getBit_not (v : Word) (b : Fin 32) : getBit (~~~v) b = !getBit v b := by
  simp [getBit, b.isLt]

@[simp] theorem getBit_zero (b : Fin 32) : getBit 0#32 b = false := by simp [getBit]

/-- The one fact about `v[b] <- x`: that bit is x and every other stays. -/
theorem getBit_setBit (v : Word) (b c : Fin 32) (x : Bool) :
    getBit (setBit v b x) c = if c = b then x else getBit v c := by
  cases x <;> by_cases h : c = b <;> simp [setBit, h]

@[simp] theorem getBit_setBit_self (v : Word) (b : Fin 32) (x : Bool) : getBit (setBit v b x) b = x := by
  simp [getBit_setBit]

/-- Two words with the same bits are the same word. -/
theorem word_ext {v w : Word} (h : ∀ b : Fin 32, getBit v b = getBit w b) : v = w :=
  BitVec.eq_of_getLsbD_eq fun i hi => h ⟨i, hi⟩

/-- Storing the value a bit already has changes nothing. -/
theorem setBit_getBit (v : Word) (b : Fin 32) : setBit v b (getBit v b) = v :=
  word_ext fun c => by rw [getBit_setBit]; split <;> simp_all

/-- `v[7:0]` written as the slice of the spec. -/
theorem txByte_eq (w : Word) : txByte w = w.extractLsb' 0 8 := rfl

/-- The level of an existing line is EN[i] and ACT[i], bits i and 4 + i (spec/44_chip_select.md R152). -/
theorem lineLevel_eq (csctrl : Word) {i : Nat} (hi : i < 4) :
    lineLevel csctrl i = (csctrl.getLsbD i && csctrl.getLsbD (4 + i)) := by
  simp [lineLevel, enNibble, actNibble, hi]

@[simp] theorem lineLevels_length (c : Config) (csctrl : Word) : (lineLevels c csctrl).length = c.numLines := by
  simp [lineLevels]

/-- The bits a write of SR clears (spec/43_control_and_status_registers.md R135). -/
theorem getBit_clearMask (c : Config) (w : Word) (b : Fin 32) :
    getBit (clearMask c w) b = (getBit w b && (decide (b = c.srOvr) || decide (b = c.srUdr))) := by
  simp [clearMask, srW1cMask]

@[simp] theorem getBit_srReset (c : Config) (b : Fin 32) : getBit (srReset c) b = decide (b = c.srTxe) := by
  simp [srReset]

/-- What a legal configuration says, as propositions. -/
theorem configLegal_iff (c : Config) : configLegal c = true ↔
    1 ≤ c.numLines ∧ c.numLines ≤ 4 ∧ 1 ≤ c.fifoCapacity ∧ [c.cr2Txeie, c.cr2Rxneie, c.cr2Errie, c.cr2Ssoe].Nodup
      ∧ [c.srRxne, c.srTxe, c.srUdr, c.srOvr, c.srBsy].Nodup := by
  simp [configLegal, and_assoc]

/-- The five SR positions of a legal configuration differ pairwise. -/
theorem srPositions_ne {c : Config} (h : configLegal c = true) :
    c.srRxne ≠ c.srTxe ∧ c.srRxne ≠ c.srUdr ∧ c.srRxne ≠ c.srOvr ∧ c.srRxne ≠ c.srBsy ∧ c.srTxe ≠ c.srUdr
      ∧ c.srTxe ≠ c.srOvr ∧ c.srTxe ≠ c.srBsy ∧ c.srUdr ≠ c.srOvr ∧ c.srUdr ≠ c.srBsy ∧ c.srOvr ≠ c.srBsy := by
  have := ((configLegal_iff c).1 h).2.2.2.2
  simp only [List.nodup_cons, List.mem_cons, List.not_mem_nil, or_false, not_or] at this
  tauto

/-- SSOE differs from the three enables in a legal configuration. -/
theorem ssoe_ne {c : Config} (h : configLegal c = true) :
    c.cr2Txeie ≠ c.cr2Ssoe ∧ c.cr2Rxneie ≠ c.cr2Ssoe ∧ c.cr2Errie ≠ c.cr2Ssoe := by
  have := ((configLegal_iff c).1 h).2.2.2.1
  simp only [List.nodup_cons, List.mem_cons, List.not_mem_nil, or_false, not_or] at this
  tauto

end Sys2Proof.Machine
end

