-- ==== Sys2Proof/Laws/Decode.lean ====
section
/-! SUPPORT. The fields of a selector (spec/30_encoding.md R71) and the decoding of the events the encoder writes. -/

namespace Sys2Proof

theorem selectorOf_rst (rst rw : Bool) (o : Offset) : (selectorOf rst rw o).getLsbD 13 = rst := by
  simp only [selectorOf, BitVec.getLsbD_cast, BitVec.getLsbD_append]
  simp

theorem selectorOf_rw (rst rw : Bool) (o : Offset) : (selectorOf rst rw o).getLsbD 12 = rw := by
  simp only [selectorOf, BitVec.getLsbD_cast, BitVec.getLsbD_append]
  simp

theorem selectorOf_offset (rst rw : Bool) (o : Offset) : (selectorOf rst rw o).extractLsb' 0 12 = o := by
  refine BitVec.eq_of_getLsbD_eq fun i hi => ?_
  simp only [selectorOf, BitVec.getLsbD_extractLsb', BitVec.getLsbD_cast, BitVec.getLsbD_append]
  simp [hi]

/-- A selector is made of its three fields. -/
theorem selectorOf_fields (sel : Selector) :
    selectorOf (sel.getLsbD 13) (sel.getLsbD 12) (sel.extractLsb' 0 12) = sel := by
  refine BitVec.eq_of_getLsbD_eq fun i hi => ?_
  simp only [selectorOf, BitVec.getLsbD_cast, BitVec.getLsbD_append, BitVec.getLsbD_ofBool, BitVec.getLsbD_extractLsb']
  obtain h | rfl | rfl : i < 12 ∨ i = 12 ∨ i = 13 := by omega
  · simp [h]
  · simp
  · simp

theorem decode_reset : decode .reset = .reset := by
  simp only [decode, Event.reset, Event.rst, selectorOf_rst, if_true]

theorem decode_read (o : Offset) : decode (.read o) = decodeRead o := by
  simp only [decode, Event.read, Event.rst, Event.rw, Event.offset, selectorOf_rst, selectorOf_rw, selectorOf_offset,
    Bool.false_eq_true, if_false]

theorem decode_write (o : Offset) (v : Word) : decode (.write o v) = decodeWrite o v := by
  simp only [decode, Event.write, Event.rst, Event.rw, Event.offset, selectorOf_rst, selectorOf_rw, selectorOf_offset,
    Bool.false_eq_true, if_false, if_true]

/-- An offset that is no register's differs from each of the five. -/
theorem isRegisterOffset_eq_false {o : Offset} (h : isRegisterOffset o = false) :
    o ≠ 0x000 ∧ o ≠ 0x004 ∧ o ≠ 0x008 ∧ o ≠ 0x00C ∧ o ≠ 0x010 := by
  simpa [isRegisterOffset, registerOffsets] using h

theorem decodeRead_bad {o : Offset} (h : isRegisterOffset o = false) : decodeRead o = .readBad o := by
  obtain ⟨h1, h2, h3, h4, h5⟩ := isRegisterOffset_eq_false h
  rw [decodeRead, if_neg h1, if_neg h2, if_neg h3, if_neg h4, if_neg h5]

theorem decodeWrite_bad {o : Offset} (v : Word) (h : isRegisterOffset o = false) : decodeWrite o v = .writeBad o v := by
  obtain ⟨h1, h2, h3, h4, h5⟩ := isRegisterOffset_eq_false h
  rw [decodeWrite, if_neg h1, if_neg h2, if_neg h3, if_neg h4, if_neg h5]

/-- Everything a read's offset can select. -/
theorem decodeRead_cases (o : Offset) :
    (o = 0x000 ∧ decodeRead o = .readCr1) ∨ (o = 0x004 ∧ decodeRead o = .readCr2) ∨
    (o = 0x008 ∧ decodeRead o = .readSr) ∨ (o = 0x00C ∧ decodeRead o = .readDr) ∨
    (o = 0x010 ∧ decodeRead o = .readCsctrl) ∨ (isRegisterOffset o = false ∧ decodeRead o = .readBad o) := by
  rcases h : isRegisterOffset o with _ | _
  · simp only [decodeRead_bad h, and_self, or_true]
  · have : o ∈ registerOffsets := by simpa [isRegisterOffset] using h
    simp only [registerOffsets, List.mem_cons, List.not_mem_nil, or_false] at this
    obtain rfl | rfl | rfl | rfl | rfl := this <;> simp [decodeRead]

/-- Everything a write's offset can select. -/
theorem decodeWrite_cases (o : Offset) :
    (o = 0x000 ∧ ∀ v, decodeWrite o v = .writeCr1 v) ∨ (o = 0x004 ∧ ∀ v, decodeWrite o v = .writeCr2 v) ∨
    (o = 0x008 ∧ ∀ v, decodeWrite o v = .writeSr v) ∨ (o = 0x00C ∧ ∀ v, decodeWrite o v = .writeDr v) ∨
    (o = 0x010 ∧ ∀ v, decodeWrite o v = .writeCsctrl v) ∨
    (isRegisterOffset o = false ∧ ∀ v, decodeWrite o v = .writeBad o v) := by
  rcases h : isRegisterOffset o with _ | _
  · simp only [fun v => decodeWrite_bad v h, and_self, or_true, implies_true]
  · have : o ∈ registerOffsets := by simpa [isRegisterOffset] using h
    simp only [registerOffsets, List.mem_cons, List.not_mem_nil, or_false] at this
    obtain rfl | rfl | rfl | rfl | rfl := this <;> simp [decodeWrite]

/-- Everything an event can select. -/
theorem decode_cases (e : Event) :
    (e.rst = true ∧ decode e = .reset) ∨
    (e.rst = false ∧ e.rw = true ∧ decode e = decodeWrite e.offset e.wdata) ∨
    (e.rst = false ∧ e.rw = false ∧ decode e = decodeRead e.offset) := by
  rcases h1 : e.rst with _ | _ <;> rcases h2 : e.rw with _ | _ <;> simp [decode, h1, h2]

end Sys2Proof
end

