-- ==== Sys2Proof/Laws/Fifo.lean ====
section
/-! SUPPORT. What the FIFO primitives can do (spec/41_fifo_pair.md R102 to R105). -/

namespace Sys2Proof.Machine

@[simp] theorem fifoIsEmpty_eq (q : List Byte) : fifoIsEmpty q = q.isEmpty := by cases q <;> rfl

/-- Everything a push can do. -/
theorem fifoPush_cases (cap : Nat) (q : List Byte) (b : Byte) :
    (q.length = cap ∧ fifoPush cap q b = (q, false)) ∨ (q.length ≠ cap ∧ fifoPush cap q b = (q ++ [b], true)) := by
  by_cases h : q.length = cap <;> simp [fifoPush, fifoIsFull, h]

/-- A push never takes a queue above its capacity (R102). -/
theorem fifoPush_length_le {cap : Nat} {q : List Byte} (b : Byte) (h : q.length ≤ cap) :
    (fifoPush cap q b).1.length ≤ cap := by
  obtain ⟨_, e⟩ | ⟨hne, e⟩ := fifoPush_cases cap q b
  · simpa [e] using h
  · simp only [e, List.length_append, List.length_singleton]; omega

/-- A push into a queue within its capacity keeps the first `cap` bytes of the old queue and the new byte. -/
theorem fifoPush_take {cap : Nat} {q : List Byte} (b : Byte) (h : q.length ≤ cap) :
    (fifoPush cap q b).1 = (q ++ [b]).take cap := by
  obtain ⟨heq, e⟩ | ⟨hne, e⟩ := fifoPush_cases cap q b
  · rw [e, ← heq, List.take_left]
  · rw [e, List.take_of_length_le]
    simp only [List.length_append, List.length_singleton]; omega

@[simp] theorem fifoPop_nil : fifoPop [] = ([], 0x00, false) := rfl

@[simp] theorem fifoPop_cons (b : Byte) (q : List Byte) : fifoPop (b :: q) = (q, b, true) := rfl

end Sys2Proof.Machine
end

