-- ==== Sys2Proof/Laws/State.lean ====
section
/-! SUPPORT. One lemma per field for each update of the state that writes fixed fields, all true by unfolding the update
once, so that no later proof unfolds it again. -/

namespace Sys2Proof.Machine

section
variable (s : State)
@[simp] theorem beginStep_cfg : (beginStep s).cfg = s.cfg := rfl
@[simp] theorem beginStep_cr1 : (beginStep s).cr1 = s.cr1 := rfl
@[simp] theorem beginStep_cr2 : (beginStep s).cr2 = s.cr2 := rfl
@[simp] theorem beginStep_sr : (beginStep s).sr = s.sr := rfl
@[simp] theorem beginStep_csctrl : (beginStep s).csctrl = s.csctrl := rfl
@[simp] theorem beginStep_txFifo : (beginStep s).txFifo = s.txFifo := rfl
@[simp] theorem beginStep_rxFifo : (beginStep s).rxFifo = s.rxFifo := rfl
@[simp] theorem beginStep_irqOut : (beginStep s).irqOut = s.irqOut := rfl
@[simp] theorem beginStep_csOut : (beginStep s).csOut = s.csOut := rfl
@[simp] theorem beginStep_bus : (beginStep s).bus = s.bus := rfl
@[simp] theorem beginStep_events : (beginStep s).events = s.events := rfl
@[simp] theorem beginStep_result : (beginStep s).result = none := rfl
@[simp] theorem beginStep_diag : (beginStep s).diag = none := rfl
end

section
variable (v : Word) (s : State)
@[simp] theorem returnValue_cfg : (returnValue v s).cfg = s.cfg := rfl
@[simp] theorem returnValue_cr1 : (returnValue v s).cr1 = s.cr1 := rfl
@[simp] theorem returnValue_cr2 : (returnValue v s).cr2 = s.cr2 := rfl
@[simp] theorem returnValue_sr : (returnValue v s).sr = s.sr := rfl
@[simp] theorem returnValue_csctrl : (returnValue v s).csctrl = s.csctrl := rfl
@[simp] theorem returnValue_txFifo : (returnValue v s).txFifo = s.txFifo := rfl
@[simp] theorem returnValue_rxFifo : (returnValue v s).rxFifo = s.rxFifo := rfl
@[simp] theorem returnValue_irqOut : (returnValue v s).irqOut = s.irqOut := rfl
@[simp] theorem returnValue_csOut : (returnValue v s).csOut = s.csOut := rfl
@[simp] theorem returnValue_bus : (returnValue v s).bus = s.bus := rfl
@[simp] theorem returnValue_events : (returnValue v s).events = s.events := rfl
@[simp] theorem returnValue_result : (returnValue v s).result = some v := rfl
@[simp] theorem returnValue_diag : (returnValue v s).diag = s.diag := rfl
end

section
variable (d : Direction) (o : Offset) (s : State)
@[simp] theorem reportBadOffset_cfg : (reportBadOffset d o s).cfg = s.cfg := rfl
@[simp] theorem reportBadOffset_cr1 : (reportBadOffset d o s).cr1 = s.cr1 := rfl
@[simp] theorem reportBadOffset_cr2 : (reportBadOffset d o s).cr2 = s.cr2 := rfl
@[simp] theorem reportBadOffset_sr : (reportBadOffset d o s).sr = s.sr := rfl
@[simp] theorem reportBadOffset_csctrl : (reportBadOffset d o s).csctrl = s.csctrl := rfl
@[simp] theorem reportBadOffset_txFifo : (reportBadOffset d o s).txFifo = s.txFifo := rfl
@[simp] theorem reportBadOffset_rxFifo : (reportBadOffset d o s).rxFifo = s.rxFifo := rfl
@[simp] theorem reportBadOffset_irqOut : (reportBadOffset d o s).irqOut = s.irqOut := rfl
@[simp] theorem reportBadOffset_csOut : (reportBadOffset d o s).csOut = s.csOut := rfl
@[simp] theorem reportBadOffset_bus : (reportBadOffset d o s).bus = s.bus := rfl
@[simp] theorem reportBadOffset_events : (reportBadOffset d o s).events = s.events := rfl
@[simp] theorem reportBadOffset_result : (reportBadOffset d o s).result = s.result := rfl
@[simp] theorem reportBadOffset_diag : (reportBadOffset d o s).diag = some ⟨d, o⟩ := rfl
end

section
variable (b : Fin 32) (x : Bool) (s : State)
@[simp] theorem setFlag_cfg : (setFlag b x s).cfg = s.cfg := rfl
@[simp] theorem setFlag_cr1 : (setFlag b x s).cr1 = s.cr1 := rfl
@[simp] theorem setFlag_cr2 : (setFlag b x s).cr2 = s.cr2 := rfl
@[simp] theorem setFlag_sr : (setFlag b x s).sr = setBit s.sr b x := rfl
@[simp] theorem setFlag_csctrl : (setFlag b x s).csctrl = s.csctrl := rfl
@[simp] theorem setFlag_txFifo : (setFlag b x s).txFifo = s.txFifo := rfl
@[simp] theorem setFlag_rxFifo : (setFlag b x s).rxFifo = s.rxFifo := rfl
@[simp] theorem setFlag_irqOut : (setFlag b x s).irqOut = s.irqOut := rfl
@[simp] theorem setFlag_csOut : (setFlag b x s).csOut = s.csOut := rfl
@[simp] theorem setFlag_bus : (setFlag b x s).bus = s.bus := rfl
@[simp] theorem setFlag_events : (setFlag b x s).events = s.events := rfl
@[simp] theorem setFlag_result : (setFlag b x s).result = s.result := rfl
@[simp] theorem setFlag_diag : (setFlag b x s).diag = s.diag := rfl
end

section
variable (w : Word) (s : State)
@[simp] theorem clearSticky_cfg : (clearSticky w s).cfg = s.cfg := rfl
@[simp] theorem clearSticky_cr1 : (clearSticky w s).cr1 = s.cr1 := rfl
@[simp] theorem clearSticky_cr2 : (clearSticky w s).cr2 = s.cr2 := rfl
@[simp] theorem clearSticky_sr : (clearSticky w s).sr = s.sr &&& ~~~clearMask s.cfg w := rfl
@[simp] theorem clearSticky_csctrl : (clearSticky w s).csctrl = s.csctrl := rfl
@[simp] theorem clearSticky_txFifo : (clearSticky w s).txFifo = s.txFifo := rfl
@[simp] theorem clearSticky_rxFifo : (clearSticky w s).rxFifo = s.rxFifo := rfl
@[simp] theorem clearSticky_irqOut : (clearSticky w s).irqOut = s.irqOut := rfl
@[simp] theorem clearSticky_csOut : (clearSticky w s).csOut = s.csOut := rfl
@[simp] theorem clearSticky_bus : (clearSticky w s).bus = s.bus := rfl
@[simp] theorem clearSticky_events : (clearSticky w s).events = s.events := rfl
@[simp] theorem clearSticky_result : (clearSticky w s).result = s.result := rfl
@[simp] theorem clearSticky_diag : (clearSticky w s).diag = s.diag := rfl
end

section
variable (s : State)
@[simp] theorem driveIrq_cfg : (driveIrq s).cfg = s.cfg := rfl
@[simp] theorem driveIrq_cr1 : (driveIrq s).cr1 = s.cr1 := rfl
@[simp] theorem driveIrq_cr2 : (driveIrq s).cr2 = s.cr2 := rfl
@[simp] theorem driveIrq_sr : (driveIrq s).sr = s.sr := rfl
@[simp] theorem driveIrq_csctrl : (driveIrq s).csctrl = s.csctrl := rfl
@[simp] theorem driveIrq_txFifo : (driveIrq s).txFifo = s.txFifo := rfl
@[simp] theorem driveIrq_rxFifo : (driveIrq s).rxFifo = s.rxFifo := rfl
@[simp] theorem driveIrq_irqOut : (driveIrq s).irqOut = irqLevel s.cfg s.sr s.cr2 := rfl
@[simp] theorem driveIrq_csOut : (driveIrq s).csOut = s.csOut := rfl
@[simp] theorem driveIrq_bus : (driveIrq s).bus = s.bus := rfl
@[simp] theorem driveIrq_events : (driveIrq s).events = s.events := rfl
@[simp] theorem driveIrq_result : (driveIrq s).result = s.result := rfl
@[simp] theorem driveIrq_diag : (driveIrq s).diag = s.diag := rfl
end

section
variable (s : State)
@[simp] theorem chipSelectUpdate_cfg : (chipSelectUpdate s).cfg = s.cfg := rfl
@[simp] theorem chipSelectUpdate_cr1 : (chipSelectUpdate s).cr1 = s.cr1 := rfl
@[simp] theorem chipSelectUpdate_cr2 : (chipSelectUpdate s).cr2 = s.cr2 := rfl
@[simp] theorem chipSelectUpdate_sr : (chipSelectUpdate s).sr = s.sr := rfl
@[simp] theorem chipSelectUpdate_csctrl : (chipSelectUpdate s).csctrl = s.csctrl := rfl
@[simp] theorem chipSelectUpdate_txFifo : (chipSelectUpdate s).txFifo = s.txFifo := rfl
@[simp] theorem chipSelectUpdate_rxFifo : (chipSelectUpdate s).rxFifo = s.rxFifo := rfl
@[simp] theorem chipSelectUpdate_irqOut : (chipSelectUpdate s).irqOut = s.irqOut := rfl
@[simp] theorem chipSelectUpdate_csOut : (chipSelectUpdate s).csOut = lineLevels s.cfg s.csctrl := rfl
@[simp] theorem chipSelectUpdate_bus : (chipSelectUpdate s).bus = s.bus := rfl
@[simp] theorem chipSelectUpdate_events : (chipSelectUpdate s).events = s.events := rfl
@[simp] theorem chipSelectUpdate_result : (chipSelectUpdate s).result = s.result := rfl
@[simp] theorem chipSelectUpdate_diag : (chipSelectUpdate s).diag = s.diag := rfl
end

section
variable (s : State)
@[simp] theorem resetBlock_cfg : (resetBlock s).cfg = s.cfg := rfl
@[simp] theorem resetBlock_cr1 : (resetBlock s).cr1 = 0x00000000 := rfl
@[simp] theorem resetBlock_cr2 : (resetBlock s).cr2 = 0x00000000 := rfl
@[simp] theorem resetBlock_sr : (resetBlock s).sr = srReset s.cfg := rfl
@[simp] theorem resetBlock_csctrl : (resetBlock s).csctrl = 0x00000000 := rfl
@[simp] theorem resetBlock_txFifo : (resetBlock s).txFifo = [] := rfl
@[simp] theorem resetBlock_rxFifo : (resetBlock s).rxFifo = [] := rfl
@[simp] theorem resetBlock_irqOut : (resetBlock s).irqOut = false := rfl
@[simp] theorem resetBlock_csOut : (resetBlock s).csOut = List.replicate s.cfg.numLines false := rfl
@[simp] theorem resetBlock_bus : (resetBlock s).bus = s.bus := rfl
@[simp] theorem resetBlock_events : (resetBlock s).events = s.events := rfl
@[simp] theorem resetBlock_result : (resetBlock s).result = s.result := rfl
@[simp] theorem resetBlock_diag : (resetBlock s).diag = s.diag := rfl
end

section
variable (e : Event) (s : State)
@[simp] theorem issueFirst_cfg : (issueFirst e s).cfg = s.cfg := rfl
@[simp] theorem issueFirst_cr1 : (issueFirst e s).cr1 = s.cr1 := rfl
@[simp] theorem issueFirst_cr2 : (issueFirst e s).cr2 = s.cr2 := rfl
@[simp] theorem issueFirst_sr : (issueFirst e s).sr = s.sr := rfl
@[simp] theorem issueFirst_csctrl : (issueFirst e s).csctrl = s.csctrl := rfl
@[simp] theorem issueFirst_txFifo : (issueFirst e s).txFifo = s.txFifo := rfl
@[simp] theorem issueFirst_rxFifo : (issueFirst e s).rxFifo = s.rxFifo := rfl
@[simp] theorem issueFirst_irqOut : (issueFirst e s).irqOut = s.irqOut := rfl
@[simp] theorem issueFirst_csOut : (issueFirst e s).csOut = s.csOut := rfl
@[simp] theorem issueFirst_bus : (issueFirst e s).bus = s.bus := rfl
@[simp] theorem issueFirst_events : (issueFirst e s).events = e :: s.events := rfl
@[simp] theorem issueFirst_result : (issueFirst e s).result = s.result := rfl
@[simp] theorem issueFirst_diag : (issueFirst e s).diag = s.diag := rfl
end

section
variable (s : State)
@[simp] theorem refreshStatus_cfg : (refreshStatus s).cfg = s.cfg := rfl
@[simp] theorem refreshStatus_cr1 : (refreshStatus s).cr1 = s.cr1 := rfl
@[simp] theorem refreshStatus_cr2 : (refreshStatus s).cr2 = s.cr2 := rfl
@[simp] theorem refreshStatus_sr : (refreshStatus s).sr = setBit (setBit s.sr s.cfg.srTxe (fifoIsEmpty s.txFifo)) s.cfg.srRxne (!fifoIsEmpty s.rxFifo) := rfl
@[simp] theorem refreshStatus_csctrl : (refreshStatus s).csctrl = s.csctrl := rfl
@[simp] theorem refreshStatus_txFifo : (refreshStatus s).txFifo = s.txFifo := rfl
@[simp] theorem refreshStatus_rxFifo : (refreshStatus s).rxFifo = s.rxFifo := rfl
@[simp] theorem refreshStatus_irqOut : (refreshStatus s).irqOut = s.irqOut := rfl
@[simp] theorem refreshStatus_csOut : (refreshStatus s).csOut = s.csOut := rfl
@[simp] theorem refreshStatus_bus : (refreshStatus s).bus = s.bus := rfl
@[simp] theorem refreshStatus_events : (refreshStatus s).events = s.events := rfl
@[simp] theorem refreshStatus_result : (refreshStatus s).result = s.result := rfl
@[simp] theorem refreshStatus_diag : (refreshStatus s).diag = s.diag := rfl
end

section
variable (s : State)
@[simp] theorem interruptCombinator_cfg : (interruptCombinator s).cfg = s.cfg := rfl
@[simp] theorem interruptCombinator_cr1 : (interruptCombinator s).cr1 = s.cr1 := rfl
@[simp] theorem interruptCombinator_cr2 : (interruptCombinator s).cr2 = s.cr2 := rfl
@[simp] theorem interruptCombinator_csctrl : (interruptCombinator s).csctrl = s.csctrl := rfl
@[simp] theorem interruptCombinator_txFifo : (interruptCombinator s).txFifo = s.txFifo := rfl
@[simp] theorem interruptCombinator_rxFifo : (interruptCombinator s).rxFifo = s.rxFifo := rfl
@[simp] theorem interruptCombinator_irqOut : (interruptCombinator s).irqOut = irqLevel s.cfg (refreshStatus s).sr s.cr2 := rfl
@[simp] theorem interruptCombinator_csOut : (interruptCombinator s).csOut = s.csOut := rfl
@[simp] theorem interruptCombinator_bus : (interruptCombinator s).bus = s.bus := rfl
@[simp] theorem interruptCombinator_events : (interruptCombinator s).events = s.events := rfl
@[simp] theorem interruptCombinator_result : (interruptCombinator s).result = s.result := rfl
@[simp] theorem interruptCombinator_diag : (interruptCombinator s).diag = s.diag := rfl
end

/-- Two states with the same fields are the same state. -/
theorem state_ext {s t : State} (cfg : s.cfg = t.cfg) (cr1 : s.cr1 = t.cr1) (cr2 : s.cr2 = t.cr2) (sr : s.sr = t.sr)
    (csctrl : s.csctrl = t.csctrl) (txFifo : s.txFifo = t.txFifo) (rxFifo : s.rxFifo = t.rxFifo)
    (irqOut : s.irqOut = t.irqOut) (csOut : s.csOut = t.csOut) (bus : s.bus = t.bus) (events : s.events = t.events)
    (result : s.result = t.result) (diag : s.diag = t.diag) : s = t := by
  cases s; cases t; simp_all

end Sys2Proof.Machine
end

