-- ==== Sys2Proof/Laws/Ops.lean ====
section
/-! SUPPORT. What each shared operation can do, said once: the fields it keeps, and one lemma for what it changes. -/

namespace Sys2Proof.Machine

/-! ### Bits of sr -/

theorem flag_setFlag (b c : Fin 32) (x : Bool) (s : State) :
    flag (setFlag b x s) c = if c = b then x else flag s c := getBit_setBit s.sr b c x

@[simp] theorem flag_beginStep (b : Fin 32) (s : State) : flag (beginStep s) b = flag s b := rfl
@[simp] theorem flag_returnValue (b : Fin 32) (v : Word) (s : State) : flag (returnValue v s) b = flag s b := rfl
@[simp] theorem flag_reportBadOffset (b : Fin 32) (d : Direction) (o : Offset) (s : State) :
    flag (reportBadOffset d o s) b = flag s b := rfl
@[simp] theorem flag_chipSelectUpdate (b : Fin 32) (s : State) : flag (chipSelectUpdate s) b = flag s b := rfl

theorem flag_clearSticky (b : Fin 32) (w : Word) (s : State) :
    flag (clearSticky w s) b
      = (flag s b && !(getBit w b && (decide (b = s.cfg.srOvr) || decide (b = s.cfg.srUdr)))) := by
  simp only [flag, clearSticky_sr, getBit_and, getBit_not, getBit_clearMask]

theorem flag_resetBlock (b : Fin 32) (s : State) : flag (resetBlock s) b = decide (b = s.cfg.srTxe) := by
  simp [flag]

/-! ### The Interrupt Combinator (spec/60_exceptions.md R180) -/

theorem flag_interruptCombinator (b : Fin 32) (s : State) :
    flag (interruptCombinator s) b
      = if b = s.cfg.srRxne then !s.rxFifo.isEmpty else if b = s.cfg.srTxe then s.txFifo.isEmpty else flag s b := by
  show getBit (refreshStatus s).sr b = _
  simp only [refreshStatus_sr, getBit_setBit, fifoIsEmpty_eq, flag]

/-- On a state whose TXE, RXNE and interrupt line are as the combinator computes them it changes nothing. -/
theorem interruptCombinator_eq_self {s : State} (hr : flag s s.cfg.srRxne = !s.rxFifo.isEmpty)
    (ht : flag s s.cfg.srTxe = s.txFifo.isEmpty) (hi : s.irqOut = irqLevel s.cfg s.sr s.cr2) :
    interruptCombinator s = s := by
  have hsr : (refreshStatus s).sr = s.sr := by
    rw [refreshStatus_sr, fifoIsEmpty_eq, fifoIsEmpty_eq, ← ht, flag, setBit_getBit, ← hr, flag, setBit_getBit]
  have hrs : refreshStatus s = s := by
    show ({ s with sr := (refreshStatus s).sr } : State) = s
    rw [hsr]
  show ({ refreshStatus s with irqOut := irqLevel (refreshStatus s).cfg (refreshStatus s).sr (refreshStatus s).cr2 }
    : State) = s
  rw [hrs, ← hi]

/-- The combinator writes sr and irq_out alone. -/
theorem interruptCombinator_frame (s : State) :
    interruptCombinator s
      = { s with sr := (interruptCombinator s).sr, irqOut := (interruptCombinator s).irqOut } := rfl

/-! ### FIFO operations on the state -/

/-- Everything a push into tx_fifo can do. -/
theorem pushTx_cases (b : Byte) (s : State) :
    (s.txFifo.length = s.cfg.fifoCapacity ∧ pushTx b s = setFlag s.cfg.srOvr true s)
      ∨ (s.txFifo.length ≠ s.cfg.fifoCapacity ∧ pushTx b s = { s with txFifo := s.txFifo ++ [b] }) := by
  obtain ⟨h, e⟩ | ⟨h, e⟩ := fifoPush_cases s.cfg.fifoCapacity s.txFifo b
  · exact .inl ⟨h, by simp [pushTx, e]⟩
  · exact .inr ⟨h, by simp [pushTx, e]⟩

/-- Everything a push into rx_fifo can do. -/
theorem pushRx_cases (r : Byte) (s : State) :
    (s.rxFifo.length = s.cfg.fifoCapacity ∧ pushRx r s = setFlag s.cfg.srOvr true s)
      ∨ (s.rxFifo.length ≠ s.cfg.fifoCapacity ∧ pushRx r s = { s with rxFifo := s.rxFifo ++ [r] }) := by
  obtain ⟨h, e⟩ | ⟨h, e⟩ := fifoPush_cases s.cfg.fifoCapacity s.rxFifo r
  · exact .inl ⟨h, by simp [pushRx, e]⟩
  · exact .inr ⟨h, by simp [pushRx, e]⟩

/-- A read of DR with nothing queued. -/
theorem popRx_nil {s : State} (h : s.rxFifo = []) :
    popRx s = returnValue 0x00000000 (setFlag s.cfg.srUdr true { s with rxFifo := [] }) := by
  simp [popRx, h]

/-- A read of DR with a byte queued. -/
theorem popRx_cons {s : State} {b : Byte} {q : List Byte} (h : s.rxFifo = b :: q) :
    popRx s = returnValue (rxWord b) { s with rxFifo := q } := by
  simp [popRx, h]

section
variable (b : Byte)

@[simp] theorem pushTx_cfg (s : State) : (pushTx b s).cfg = s.cfg := by
  obtain ⟨_, e⟩ | ⟨_, e⟩ := pushTx_cases b s <;> simp [e]
@[simp] theorem pushTx_cr1 (s : State) : (pushTx b s).cr1 = s.cr1 := by
  obtain ⟨_, e⟩ | ⟨_, e⟩ := pushTx_cases b s <;> simp [e]
@[simp] theorem pushTx_cr2 (s : State) : (pushTx b s).cr2 = s.cr2 := by
  obtain ⟨_, e⟩ | ⟨_, e⟩ := pushTx_cases b s <;> simp [e]
@[simp] theorem pushTx_csctrl (s : State) : (pushTx b s).csctrl = s.csctrl := by
  obtain ⟨_, e⟩ | ⟨_, e⟩ := pushTx_cases b s <;> simp [e]
@[simp] theorem pushTx_irqOut (s : State) : (pushTx b s).irqOut = s.irqOut := by
  obtain ⟨_, e⟩ | ⟨_, e⟩ := pushTx_cases b s <;> simp [e]
@[simp] theorem pushTx_csOut (s : State) : (pushTx b s).csOut = s.csOut := by
  obtain ⟨_, e⟩ | ⟨_, e⟩ := pushTx_cases b s <;> simp [e]
@[simp] theorem pushTx_events (s : State) : (pushTx b s).events = s.events := by
  obtain ⟨_, e⟩ | ⟨_, e⟩ := pushTx_cases b s <;> simp [e]
@[simp] theorem pushTx_diag (s : State) : (pushTx b s).diag = s.diag := by
  obtain ⟨_, e⟩ | ⟨_, e⟩ := pushTx_cases b s <;> simp [e]
@[simp] theorem pushTx_rxFifo (s : State) : (pushTx b s).rxFifo = s.rxFifo := by
  obtain ⟨_, e⟩ | ⟨_, e⟩ := pushTx_cases b s <;> simp [e]
@[simp] theorem pushTx_bus (s : State) : (pushTx b s).bus = s.bus := by
  obtain ⟨_, e⟩ | ⟨_, e⟩ := pushTx_cases b s <;> simp [e]
@[simp] theorem pushTx_result (s : State) : (pushTx b s).result = s.result := by
  obtain ⟨_, e⟩ | ⟨_, e⟩ := pushTx_cases b s <;> simp [e]
@[simp] theorem pushRx_cfg (s : State) : (pushRx b s).cfg = s.cfg := by
  obtain ⟨_, e⟩ | ⟨_, e⟩ := pushRx_cases b s <;> simp [e]
@[simp] theorem pushRx_cr1 (s : State) : (pushRx b s).cr1 = s.cr1 := by
  obtain ⟨_, e⟩ | ⟨_, e⟩ := pushRx_cases b s <;> simp [e]
@[simp] theorem pushRx_cr2 (s : State) : (pushRx b s).cr2 = s.cr2 := by
  obtain ⟨_, e⟩ | ⟨_, e⟩ := pushRx_cases b s <;> simp [e]
@[simp] theorem pushRx_csctrl (s : State) : (pushRx b s).csctrl = s.csctrl := by
  obtain ⟨_, e⟩ | ⟨_, e⟩ := pushRx_cases b s <;> simp [e]
@[simp] theorem pushRx_irqOut (s : State) : (pushRx b s).irqOut = s.irqOut := by
  obtain ⟨_, e⟩ | ⟨_, e⟩ := pushRx_cases b s <;> simp [e]
@[simp] theorem pushRx_csOut (s : State) : (pushRx b s).csOut = s.csOut := by
  obtain ⟨_, e⟩ | ⟨_, e⟩ := pushRx_cases b s <;> simp [e]
@[simp] theorem pushRx_events (s : State) : (pushRx b s).events = s.events := by
  obtain ⟨_, e⟩ | ⟨_, e⟩ := pushRx_cases b s <;> simp [e]
@[simp] theorem pushRx_diag (s : State) : (pushRx b s).diag = s.diag := by
  obtain ⟨_, e⟩ | ⟨_, e⟩ := pushRx_cases b s <;> simp [e]
@[simp] theorem pushRx_txFifo (s : State) : (pushRx b s).txFifo = s.txFifo := by
  obtain ⟨_, e⟩ | ⟨_, e⟩ := pushRx_cases b s <;> simp [e]
@[simp] theorem pushRx_bus (s : State) : (pushRx b s).bus = s.bus := by
  obtain ⟨_, e⟩ | ⟨_, e⟩ := pushRx_cases b s <;> simp [e]
@[simp] theorem pushRx_result (s : State) : (pushRx b s).result = s.result := by
  obtain ⟨_, e⟩ | ⟨_, e⟩ := pushRx_cases b s <;> simp [e]

end

@[simp] theorem popRx_cfg (s : State) : (popRx s).cfg = s.cfg := by
  rcases h : s.rxFifo with _ | ⟨b, q⟩
  · simp [popRx_nil h]
  · simp [popRx_cons h]
@[simp] theorem popRx_cr1 (s : State) : (popRx s).cr1 = s.cr1 := by
  rcases h : s.rxFifo with _ | ⟨b, q⟩
  · simp [popRx_nil h]
  · simp [popRx_cons h]
@[simp] theorem popRx_cr2 (s : State) : (popRx s).cr2 = s.cr2 := by
  rcases h : s.rxFifo with _ | ⟨b, q⟩
  · simp [popRx_nil h]
  · simp [popRx_cons h]
@[simp] theorem popRx_csctrl (s : State) : (popRx s).csctrl = s.csctrl := by
  rcases h : s.rxFifo with _ | ⟨b, q⟩
  · simp [popRx_nil h]
  · simp [popRx_cons h]
@[simp] theorem popRx_irqOut (s : State) : (popRx s).irqOut = s.irqOut := by
  rcases h : s.rxFifo with _ | ⟨b, q⟩
  · simp [popRx_nil h]
  · simp [popRx_cons h]
@[simp] theorem popRx_csOut (s : State) : (popRx s).csOut = s.csOut := by
  rcases h : s.rxFifo with _ | ⟨b, q⟩
  · simp [popRx_nil h]
  · simp [popRx_cons h]
@[simp] theorem popRx_events (s : State) : (popRx s).events = s.events := by
  rcases h : s.rxFifo with _ | ⟨b, q⟩
  · simp [popRx_nil h]
  · simp [popRx_cons h]
@[simp] theorem popRx_diag (s : State) : (popRx s).diag = s.diag := by
  rcases h : s.rxFifo with _ | ⟨b, q⟩
  · simp [popRx_nil h]
  · simp [popRx_cons h]
@[simp] theorem popRx_txFifo (s : State) : (popRx s).txFifo = s.txFifo := by
  rcases h : s.rxFifo with _ | ⟨b, q⟩
  · simp [popRx_nil h]
  · simp [popRx_cons h]
@[simp] theorem popRx_bus (s : State) : (popRx s).bus = s.bus := by
  rcases h : s.rxFifo with _ | ⟨b, q⟩
  · simp [popRx_nil h]
  · simp [popRx_cons h]

theorem popRx_rxFifo (s : State) : (popRx s).rxFifo = s.rxFifo.tail := by
  rcases h : s.rxFifo with _ | ⟨b, q⟩
  · simp [popRx_nil h]
  · simp [popRx_cons h]

theorem popRx_result (s : State) :
    (popRx s).result = some (match s.rxFifo with | [] => 0 | b :: _ => rxWord b) := by
  rcases h : s.rxFifo with _ | ⟨b, q⟩
  · simp [popRx_nil h]
  · simp [popRx_cons h]

theorem flag_popRx (b : Fin 32) (s : State) :
    flag (popRx s) b = if b = s.cfg.srUdr then flag s b || s.rxFifo.isEmpty else flag s b := by
  rcases h : s.rxFifo with _ | ⟨x, q⟩
  · rw [popRx_nil h, flag_returnValue, flag_setFlag]
    split <;> simp [flag]
  · rw [popRx_cons h, flag_returnValue]
    simp [flag]

theorem pushTx_txFifo (b : Byte) (s : State) :
    (pushTx b s).txFifo = if s.txFifo.length = s.cfg.fifoCapacity then s.txFifo else s.txFifo ++ [b] := by
  obtain ⟨h, e⟩ | ⟨h, e⟩ := pushTx_cases b s <;> simp [e, h]

theorem pushRx_rxFifo (r : Byte) (s : State) :
    (pushRx r s).rxFifo = if s.rxFifo.length = s.cfg.fifoCapacity then s.rxFifo else s.rxFifo ++ [r] := by
  obtain ⟨h, e⟩ | ⟨h, e⟩ := pushRx_cases r s <;> simp [e, h]

theorem flag_pushTx (c : Fin 32) (b : Byte) (s : State) :
    flag (pushTx b s) c
      = if c = s.cfg.srOvr then flag s c || decide (s.txFifo.length = s.cfg.fifoCapacity) else flag s c := by
  obtain ⟨h, e⟩ | ⟨h, e⟩ := pushTx_cases b s
  · rw [e, flag_setFlag]; split <;> simp [h]
  · rw [e]; simp [flag, h]

theorem flag_pushRx (c : Fin 32) (r : Byte) (s : State) :
    flag (pushRx r s) c
      = if c = s.cfg.srOvr then flag s c || decide (s.rxFifo.length = s.cfg.fifoCapacity) else flag s c := by
  obtain ⟨h, e⟩ | ⟨h, e⟩ := pushRx_cases r s
  · rw [e, flag_setFlag]; split <;> simp [h]
  · rw [e]; simp [flag, h]

/-! ### The bus -/

/-- A transfer adds one record to the log: the lines, the byte sent and the byte answered. -/
theorem busTransfer_log (b : BusState) (cs : List Bool) (t : Byte) :
    (busTransfer b cs t).1.log = b.log ++ [⟨cs, t, (busTransfer b cs t).2⟩] := rfl

/-- A transfer on the reference bus leaves it the reference bus with the same parameters. -/
theorem busTransfer_ref {b : BusState} {p : SlaveParams} {st : SlaveState} (h : b.env = .ref p st) (cs : List Bool)
    (t : Byte) : (busTransfer b cs t).1.env = .ref p (refBusTransfer p st cs t).1 := by
  simp [busTransfer, busEnvTransfer, h]

/-- The parameters R169 admits: RD_CMDS does not hold ID_CMD. -/
theorem slaveParamsLegal_iff (p : SlaveParams) : slaveParamsLegal p = true ↔ p.idCmd ∉ p.rdCmds := by
  simp [slaveParamsLegal]

/-! ### The Transfer Engine (spec/42_data_register_and_transfer_engine.md R112) -/

/-- One iteration on a queue whose oldest byte is t: the transfer of t and the push of its answer. -/
theorem engineIteration_cons {s : State} {t : Byte} {q : List Byte} (h : s.txFifo = t :: q) :
    engineIteration s
      = pushRx (busTransfer s.bus s.csOut t).2 { s with txFifo := q, bus := (busTransfer s.bus s.csOut t).1 } := by
  simp [engineIteration, h]

@[simp] theorem engineIteration_cfg (s : State) : (engineIteration s).cfg = s.cfg := by simp [engineIteration]
@[simp] theorem engineIteration_cr1 (s : State) : (engineIteration s).cr1 = s.cr1 := by simp [engineIteration]
@[simp] theorem engineIteration_cr2 (s : State) : (engineIteration s).cr2 = s.cr2 := by simp [engineIteration]
@[simp] theorem engineIteration_csctrl (s : State) : (engineIteration s).csctrl = s.csctrl := by simp [engineIteration]
@[simp] theorem engineIteration_irqOut (s : State) : (engineIteration s).irqOut = s.irqOut := by simp [engineIteration]
@[simp] theorem engineIteration_csOut (s : State) : (engineIteration s).csOut = s.csOut := by simp [engineIteration]
@[simp] theorem engineIteration_events (s : State) : (engineIteration s).events = s.events := by simp [engineIteration]
@[simp] theorem engineIteration_diag (s : State) : (engineIteration s).diag = s.diag := by simp [engineIteration]
@[simp] theorem engineIteration_result (s : State) : (engineIteration s).result = s.result := by simp [engineIteration]

theorem engineIteration_txFifo (s : State) : (engineIteration s).txFifo = s.txFifo.tail := by
  rcases h : s.txFifo with _ | ⟨t, q⟩ <;> simp [engineIteration, h]

section
variable (q : List Byte)

@[simp] theorem engineLoop_cfg (s : State) : (engineLoop q s).cfg = s.cfg := by
  induction q generalizing s <;> simp_all [engineLoop]
@[simp] theorem engineLoop_cr1 (s : State) : (engineLoop q s).cr1 = s.cr1 := by
  induction q generalizing s <;> simp_all [engineLoop]
@[simp] theorem engineLoop_cr2 (s : State) : (engineLoop q s).cr2 = s.cr2 := by
  induction q generalizing s <;> simp_all [engineLoop]
@[simp] theorem engineLoop_csctrl (s : State) : (engineLoop q s).csctrl = s.csctrl := by
  induction q generalizing s <;> simp_all [engineLoop]
@[simp] theorem engineLoop_irqOut (s : State) : (engineLoop q s).irqOut = s.irqOut := by
  induction q generalizing s <;> simp_all [engineLoop]
@[simp] theorem engineLoop_csOut (s : State) : (engineLoop q s).csOut = s.csOut := by
  induction q generalizing s <;> simp_all [engineLoop]
@[simp] theorem engineLoop_events (s : State) : (engineLoop q s).events = s.events := by
  induction q generalizing s <;> simp_all [engineLoop]
@[simp] theorem engineLoop_diag (s : State) : (engineLoop q s).diag = s.diag := by
  induction q generalizing s <;> simp_all [engineLoop]
@[simp] theorem engineLoop_result (s : State) : (engineLoop q s).result = s.result := by
  induction q generalizing s <;> simp_all [engineLoop]

end

/-- The loop takes as many bytes off tx_fifo as it makes iterations. -/
theorem engineLoop_txFifo (q : List Byte) (s : State) : (engineLoop q s).txFifo = s.txFifo.drop q.length := by
  induction q generalizing s with
  | nil => rfl
  | cons t q ih => simp [engineLoop, ih, engineIteration_txFifo, Nat.add_comm]

theorem flag_engineIteration (b : Fin 32) (s : State) (h : b ≠ s.cfg.srOvr) :
    flag (engineIteration s) b = flag s b := by
  simp only [engineIteration, flag_pushRx]
  rw [if_neg h]; rfl

theorem flag_engineLoop (b : Fin 32) (q : List Byte) (s : State) (h : b ≠ s.cfg.srOvr) :
    flag (engineLoop q s) b = flag s b := by
  induction q generalizing s with
  | nil => rfl
  | cons t q ih => rw [engineLoop, ih _ (by simpa using h), flag_engineIteration b s h]

@[simp] theorem transferEngine_cfg (s : State) : (transferEngine s).cfg = s.cfg := by simp [transferEngine]
@[simp] theorem transferEngine_cr1 (s : State) : (transferEngine s).cr1 = s.cr1 := by simp [transferEngine]
@[simp] theorem transferEngine_cr2 (s : State) : (transferEngine s).cr2 = s.cr2 := by simp [transferEngine]
@[simp] theorem transferEngine_csctrl (s : State) : (transferEngine s).csctrl = s.csctrl := by simp [transferEngine]
@[simp] theorem transferEngine_irqOut (s : State) : (transferEngine s).irqOut = s.irqOut := by simp [transferEngine]
@[simp] theorem transferEngine_csOut (s : State) : (transferEngine s).csOut = s.csOut := by simp [transferEngine]
@[simp] theorem transferEngine_events (s : State) : (transferEngine s).events = s.events := by simp [transferEngine]
@[simp] theorem transferEngine_diag (s : State) : (transferEngine s).diag = s.diag := by simp [transferEngine]
@[simp] theorem transferEngine_result (s : State) : (transferEngine s).result = s.result := by simp [transferEngine]

/-- The engine leaves tx_fifo empty. -/
@[simp] theorem transferEngine_txFifo (s : State) : (transferEngine s).txFifo = [] := by
  simp [transferEngine, engineLoop_txFifo]

/-- The engine leaves BSY 0 and TXE 1 and touches no other bit of sr but OVR. -/
theorem flag_transferEngine (b : Fin 32) (s : State) (h : b ≠ s.cfg.srOvr) :
    flag (transferEngine s) b = if b = s.cfg.srTxe then true else if b = s.cfg.srBsy then false else flag s b := by
  simp only [transferEngine, flag_setFlag, setFlag_cfg, engineLoop_cfg]
  split
  · rfl
  · split
    · rfl
    · rename_i h2
      rw [flag_engineLoop _ _ _ (by simpa using h), flag_setFlag, if_neg h2]

/-- The engine on a tx_fifo that holds one byte: one transfer (R115). -/
theorem transferEngine_single {s : State} {t : Byte} (h : s.txFifo = [t]) :
    transferEngine s
      = setFlag s.cfg.srTxe true (setFlag s.cfg.srBsy false
          (pushRx (busTransfer s.bus s.csOut t).2
            { setFlag s.cfg.srBsy true s with txFifo := [], bus := (busTransfer s.bus s.csOut t).1 })) := by
  have e : (setFlag s.cfg.srBsy true s).txFifo = [t] := by simpa using h
  simp [transferEngine, h, engineLoop, engineIteration_cons e]

/-! ### The step -/

/-- The step of a legal configuration, by the events issued. -/
theorem step_legal {s : State} (hl : configLegal s.cfg = true) :
    step s = match s.events with
      | [] => .next s
      | e :: rest => exec (decode e) { s with events := rest } := by
  rcases he : s.events with _ | ⟨e, rest⟩ <;> simp [step, hl, nextEvent, he]

/-- Everything a step can do. -/
theorem step_cases {s t : State} (h : step s = .next t) :
    configLegal s.cfg = true
      ∧ ((s.events = [] ∧ t = s)
        ∨ ∃ e rest, s.events = e :: rest ∧ exec (decode e) { s with events := rest } = .next t) := by
  by_cases hl : configLegal s.cfg = true
  · refine ⟨hl, ?_⟩
    rw [step_legal hl] at h
    rcases he : s.events with _ | ⟨e, rest⟩ <;> rw [he] at h
    · exact .inl ⟨rfl, (Host.Outcome.next.inj h).symm⟩
    · exact .inr ⟨e, rest, rfl, h⟩
  · simp [step, hl] at h

/-- The handler of an access: what the operation does before the epilogue (spec/40_register_decode.md R91). -/
def handler (i : Instr) (s : State) : State :=
  match i with
  | .reset => resetBlock (beginStep s)
  | .readCr1 => returnValue s.cr1 (beginStep s)
  | .writeCr1 w => { beginStep s with cr1 := w }
  | .readCr2 => returnValue s.cr2 (beginStep s)
  | .writeCr2 w => { beginStep s with cr2 := w }
  | .readSr => returnValue s.sr (beginStep s)
  | .writeSr w => clearSticky w (beginStep s)
  | .readDr => popRx (beginStep s)
  | .writeDr w => transferEngine (pushTx (txByte w) (beginStep s))
  | .readCsctrl => returnValue s.csctrl (beginStep s)
  | .writeCsctrl w => chipSelectUpdate { beginStep s with csctrl := w }
  | .readBad o => returnValue 0x00000000 (reportBadOffset .read o (beginStep s))
  | .writeBad o _ => reportBadOffset .write o (beginStep s)

@[simp] theorem handler_cfg (i : Instr) (s : State) : (handler i s).cfg = s.cfg := by
  cases i <;> simp [handler]

@[simp] theorem handler_events (i : Instr) (s : State) : (handler i s).events = s.events := by
  cases i <;> simp [handler]

/-- The bits of sr the handler of READ_DR leaves: it can set UDR, and touches no other. -/
theorem flag_handler_readDr (s : State) (b : Fin 32) :
    flag (handler .readDr s) b = if b = s.cfg.srUdr then flag s b || s.rxFifo.isEmpty else flag s b :=
  flag_popRx b (beginStep s)

/-- The bits of sr the handler of WRITE_DR leaves, but for OVR: TXE 1, BSY 0, every other as it was. -/
theorem flag_handler_writeDr (s : State) (w : Word) (b : Fin 32) (h : b ≠ s.cfg.srOvr) :
    flag (handler (.writeDr w) s) b = if b = s.cfg.srTxe then true else if b = s.cfg.srBsy then false else flag s b := by
  have e : flag (pushTx (txByte w) (beginStep s)) b = flag s b :=
    (flag_pushTx b _ _).trans (if_neg h)
  have c : (pushTx (txByte w) (beginStep s)).cfg = s.cfg := by simp
  rw [← e, ← c]
  exact flag_transferEngine b _ (by rw [c]; exact h)

/-- The bits of sr the handler of WRITE_SR leaves (spec/43_control_and_status_registers.md R135). -/
theorem flag_handler_writeSr (s : State) (w : Word) (b : Fin 32) :
    flag (handler (.writeSr w) s) b
      = (flag s b && !(getBit w b && (decide (b = s.cfg.srOvr) || decide (b = s.cfg.srUdr)))) :=
  flag_clearSticky b w (beginStep s)

/-- Every access is its handler and then the epilogue. -/
theorem exec_access {i : Instr} (h : i ≠ .reset) (s : State) : exec i s = .next (interruptCombinator (handler i s)) := by
  cases i <;> first | exact absurd rfl h | rfl

theorem exec_reset (s : State) : exec .reset s = .next (resetBlock (beginStep s)) := rfl

end Sys2Proof.Machine
end

