-- ==== Sys2Proof/Laws/PerInstr.lean ====
section
/-! SUPPORT. The family RowMatch, one lemma per operation: the event that issues a well-formed operation matches the row
of the selection table that names it (spec/30_encoding.md R71, R72). -/

namespace Sys2Proof.Laws.RowMatch

/-- The event that issues the operation matches its row of the selection table (spec/30_encoding.md R72). -/
def Statement (i : Instr) : Prop :=
  i.wellFormed = true → ∃ r ∈ selectionTable, r.operation = i.operation ∧ r.hits (encode i).sel = true

/-- Bits 13 and 12 of an access's selector are 0 and the direction, whatever the offset. -/
theorem selector_top (rw : Bool) (o : Offset) :
    selectorOf false rw o &&& 0x3000 = if rw then 0x1000 else 0x0000 := by
  refine BitVec.eq_of_getLsbD_eq fun i hi => ?_
  obtain h | rfl | rfl : i < 12 ∨ i = 12 ∨ i = 13 := by omega
  · have h0 : (0x3000#14).getLsbD i = false := by
      revert i; decide
    have h1 : (if rw then 0x1000#14 else 0x0000#14).getLsbD i = false := by
      cases rw <;> (clear h0; revert i; decide)
    rw [BitVec.getLsbD_and]
    show (_ && (0x3000#14).getLsbD i) = (if rw then 0x1000#14 else 0x0000#14).getLsbD i
    rw [h0, Bool.and_false, h1]
  · rw [BitVec.getLsbD_and, selectorOf_rw]; cases rw <;> rfl
  · rw [BitVec.getLsbD_and, selectorOf_rst]; cases rw <;> rfl

theorem reset : Statement .reset := fun _ => ⟨⟨.reset, 0x2000, 0x2000⟩, by decide, rfl, by decide⟩

theorem readCr1 : Statement .readCr1 := fun _ => ⟨⟨.readCr1, 0x3FFF, 0x0000⟩, by decide, rfl, by decide⟩

theorem writeCr1 (wdata : Word) : Statement (.writeCr1 wdata) := fun _ =>
  ⟨⟨.writeCr1, 0x3FFF, 0x1000⟩, by decide, rfl,
    (by decide : SelectionRow.hits ⟨.writeCr1, 0x3FFF, 0x1000⟩ (selectorOf false true (Reg.offset .cr1)) = true)⟩

theorem readCr2 : Statement .readCr2 := fun _ => ⟨⟨.readCr2, 0x3FFF, 0x0004⟩, by decide, rfl, by decide⟩

theorem writeCr2 (wdata : Word) : Statement (.writeCr2 wdata) := fun _ =>
  ⟨⟨.writeCr2, 0x3FFF, 0x1004⟩, by decide, rfl,
    (by decide : SelectionRow.hits ⟨.writeCr2, 0x3FFF, 0x1004⟩ (selectorOf false true (Reg.offset .cr2)) = true)⟩

theorem readSr : Statement .readSr := fun _ => ⟨⟨.readSr, 0x3FFF, 0x0008⟩, by decide, rfl, by decide⟩

theorem writeSr (wdata : Word) : Statement (.writeSr wdata) := fun _ =>
  ⟨⟨.writeSr, 0x3FFF, 0x1008⟩, by decide, rfl,
    (by decide : SelectionRow.hits ⟨.writeSr, 0x3FFF, 0x1008⟩ (selectorOf false true (Reg.offset .sr)) = true)⟩

theorem readDr : Statement .readDr := fun _ => ⟨⟨.readDr, 0x3FFF, 0x000C⟩, by decide, rfl, by decide⟩

theorem writeDr (wdata : Word) : Statement (.writeDr wdata) := fun _ =>
  ⟨⟨.writeDr, 0x3FFF, 0x100C⟩, by decide, rfl,
    (by decide : SelectionRow.hits ⟨.writeDr, 0x3FFF, 0x100C⟩ (selectorOf false true (Reg.offset .dr)) = true)⟩

theorem readCsctrl : Statement .readCsctrl := fun _ => ⟨⟨.readCsctrl, 0x3FFF, 0x0010⟩, by decide, rfl, by decide⟩

theorem writeCsctrl (wdata : Word) : Statement (.writeCsctrl wdata) := fun _ =>
  ⟨⟨.writeCsctrl, 0x3FFF, 0x1010⟩, by decide, rfl,
    (by decide : SelectionRow.hits ⟨.writeCsctrl, 0x3FFF, 0x1010⟩ (selectorOf false true (Reg.offset .csctrl)) = true)⟩

theorem readBad (offset : Offset) : Statement (.readBad offset) := fun _ =>
  ⟨⟨.readBad, 0x3000, 0x0000⟩, by decide, rfl, by
    simp only [SelectionRow.hits, encode, Event.read, selector_top, beq_iff_eq, Bool.false_eq_true, if_false]⟩

theorem writeBad (offset : Offset) (wdata : Word) : Statement (.writeBad offset wdata) := fun _ =>
  ⟨⟨.writeBad, 0x3000, 0x1000⟩, by decide, rfl, by
    simp only [SelectionRow.hits, encode, Event.write, selector_top, beq_iff_eq, if_true]⟩

end Sys2Proof.Laws.RowMatch
end

