-- ==== Sys2Proof/Tests/Slice0.lean ====
section
/-! SUPPORT. The model's own tests: what the checks refuse, selectors written out from the spec's selection table, single
steps with the values of spec/95_test_vectors.md, and a witness for the hypotheses of every statement. -/

namespace Sys2Proof.Tests

open Sys2Proof.Machine

/-! ### Helpers -/

/-- A block just created in the reference configuration on `ScriptBus(answers)`. -/
def onScript (answers : List Byte) : State := State.create referenceConfig (.script answers)

/-- A block just created in the reference configuration on `RefBus` with the illustrative slave. -/
def onRef : State := State.create referenceConfig (.ref illustrativeSlave)

/-- The next state of an outcome, if it is one. -/
def nextOf (o : Out) : Option State :=
  match o with
  | .next s => some s
  | .fault _ | .refused _ => none

/-- sr, rx_fifo and irq_out of the next state of an outcome. -/
def sees (o : Out) : Option (Word × List Byte × Bool) := (nextOf o).map fun t => (t.sr, t.rxFifo, t.irqOut)

/-- The value the last operation returned and sr, of the next state of an outcome. -/
def returned (o : Out) : Option (Option Word × Word) := (nextOf o).map fun t => (t.result, t.sr)

/-- The fullest state of V2.30 before its RESET: all four bits of sr set, a byte waiting, line 0 asserted, irq 1. -/
def busy : State :=
  { onScript [0x42] with
    cr1 := 0x00000344
    cr2 := 0x000000E0
    sr := 0x0000000F
    csctrl := 0x00000011
    rxFifo := [0x5A]
    irqOut := true
    csOut := [true, false, false, false] }

/-- The other layout of V2.40, with one line and a FIFO of two bytes. -/
def layoutTwo : Config where
  numLines := 1
  fifoCapacity := 2
  cr2Txeie := 7
  cr2Rxneie := 6
  cr2Errie := 5
  cr2Ssoe := 2
  srRxne := 0
  srTxe := 1
  srUdr := 3
  srOvr := 6
  srBsy := 7

/-- V2.9 (a): tx_fifo full, a state no run reaches. -/
def txFull : State := { onScript [0x33] with txFifo := [0x11], sr := 0x00000000 }

/-! ### What the checks refuse -/

theorem test_wellFormed_readBad_cr1 : Instr.wellFormed (.readBad 0x000) = false := by decide
theorem test_wellFormed_readBad_dr : Instr.wellFormed (.readBad 0x00C) = false := by decide
theorem test_wellFormed_writeBad_csctrl : Instr.wellFormed (.writeBad 0x010 0xFF) = false := by decide
theorem test_wellFormed_readBad_ok : Instr.wellFormed (.readBad 0x00D) = true := by decide
theorem test_wellFormed_writeBad_ok : Instr.wellFormed (.writeBad 0x014 0) = true := by decide

theorem test_config_no_line : configLegal { referenceConfig with numLines := 0 } = false := by decide
theorem test_config_five_lines : configLegal { referenceConfig with numLines := 5 } = false := by decide
theorem test_config_no_capacity : configLegal { referenceConfig with fifoCapacity := 0 } = false := by decide
theorem test_config_cr2_overlap : configLegal { referenceConfig with cr2Ssoe := 7 } = false := by decide
theorem test_config_sr_overlap : configLegal { referenceConfig with srBsy := 0 } = false := by decide
theorem test_config_reference : configLegal referenceConfig = true := by decide
theorem test_config_other : configLegal layoutTwo = true := by decide
theorem test_slave_params : slaveParamsLegal { illustrativeSlave with rdCmds := [0x03, 0x9F] } = false := by decide
theorem test_slave_params_ok : slaveParamsLegal illustrativeSlave = true := by decide

theorem test_word_too_wide : decodeWord (2 ^ 46) = .error .wordTooWide := by decide
theorem test_step_illegal : step { onScript [] with cfg := { referenceConfig with numLines := 5 } }
    = .refused .illegalConfig := rfl

/-! ### Selectors written out bit by bit from spec/30_encoding.md R71: rst, rw, offset[11:0] -/

theorem test_decode_reset : decodeTableWord 14 0b10000000000000 = some .reset := by decide
theorem test_decode_readCr1 : decodeTableWord 14 0b00000000000000 = some .readCr1 := by decide
theorem test_decode_readCr2 : decodeTableWord 14 0b00000000000100 = some .readCr2 := by decide
theorem test_decode_readSr : decodeTableWord 14 0b00000000001000 = some .readSr := by decide
theorem test_decode_readDr : decodeTableWord 14 0b00000000001100 = some .readDr := by decide
theorem test_decode_readCsctrl : decodeTableWord 14 0b00000000010000 = some .readCsctrl := by decide
theorem test_decode_readBad : decodeTableWord 14 0b00111111111100 = some (.readBad 0xFFC) := by decide
theorem test_decode_writeCr1 : decode ⟨0b01000000000000#14, 0x344⟩ = .writeCr1 0x344 := by decide
theorem test_decode_writeCr2 : decode ⟨0b01000000000100#14, 0x80⟩ = .writeCr2 0x80 := by decide
theorem test_decode_writeSr : decode ⟨0b01000000001000#14, 0x0C⟩ = .writeSr 0x0C := by decide
theorem test_decode_writeDr : decode ⟨0b01000000001100#14, 0x9F⟩ = .writeDr 0x9F := by decide
theorem test_decode_writeCsctrl : decode ⟨0b01000000010000#14, 0x13⟩ = .writeCsctrl 0x13 := by decide
theorem test_decode_writeBad : decode ⟨0b01000000001101#14, 0x55⟩ = .writeBad 0x00D 0x55 := by decide
theorem test_decode_reset_ignores : decode ⟨0b11000000001100#14, 0x55⟩ = .reset := by decide
theorem test_decode_event_word : decodeWord (0x100C + 2 ^ 14 * 0x12345678) = .ok (.writeDr 0x12345678) := by decide
theorem test_encode_writeSr : encode (.writeSr 0x0C) = ⟨0x1008, 0x0C⟩ := by decide

/-! ### Single steps, with the values of spec/95_test_vectors.md -/

/-- V1.2: the reset state reads SR as 0x02. -/
theorem test_readSr_reset : returned (exec .readSr (onScript [])) = some (some 0x02, 0x02) := by decide
/-- V2.30: all four bits. -/
theorem test_readSr_busy : returned (exec .readSr busy) = some (some 0x0F, 0x0F) := by decide
/-- V2.4. -/
theorem test_readCr1 : returned (exec .readCr1 busy) = some (some 0x344, 0x0F) := by decide
theorem test_writeCr1 : (nextOf (exec (.writeCr1 0xFFFFFFFF) (onScript []))).map (·.cr1) = some 0xFFFFFFFF := by decide
/-- V2.5: all bits but the three enables, SSOE set, leave the line at 0. -/
theorem test_writeCr2_inert : sees (exec (.writeCr2 0xFFFFFF1F) (onScript [])) = some (0x02, [], false) := by decide
/-- V2.5: TXEIE raises the line at once. -/
theorem test_writeCr2_txeie : sees (exec (.writeCr2 0x80) (onScript [])) = some (0x02, [], true) := by decide
theorem test_readCr2 : returned (exec .readCr2 busy) = some (some 0xE0, 0x0F) := by decide
/-- V2.11: ones everywhere but OVR and UDR clear nothing. -/
theorem test_writeSr_others : sees (exec (.writeSr 0xFFFFFFF3) busy) = some (0x0F, [0x5A], true) := by decide
/-- V2.11: OVR alone. -/
theorem test_writeSr_ovr : sees (exec (.writeSr 0x08) busy) = some (0x07, [0x5A], true) := by decide
/-- V1.4. -/
theorem test_writeDr : sees (exec (.writeDr 0x9F) (onScript [0xA5])) = some (0x03, [0xA5], false) := by decide
/-- V2.20: only the low byte is sent; rx_fifo full drops the new response. -/
theorem test_writeDr_overrun :
    (nextOf (exec (.writeDr 0x1FF) busy)).map (fun t => (t.sr, t.rxFifo, t.bus.log))
      = some (0x0F, [0x5A], [⟨[true, false, false, false], 0xFF, 0x42⟩]) := by decide
/-- V2.9 (a): tx_fifo full. -/
theorem test_writeDr_txFull :
    (nextOf (exec (.writeDr 0x44) txFull)).map (fun t => (t.sr, t.txFifo, t.rxFifo, t.bus.log))
      = some (0x0B, [], [0x33], [⟨[false, false, false, false], 0x11, 0x33⟩]) := by decide
/-- V1.7. -/
theorem test_readDr_empty : returned (exec .readDr (onScript [])) = some (some 0, 0x06) := by decide
/-- V2.21: zero-extended, not sign-extended. -/
theorem test_readDr_byte :
    returned (exec .readDr { onScript [] with rxFifo := [0xFF], sr := 0x03 }) = some (some 0xFF, 0x02) := by decide
/-- V1.1. -/
theorem test_writeCsctrl : (nextOf (exec (.writeCsctrl 0x13) (onScript []))).map (fun t => (t.csctrl, t.csOut))
    = some (0x13, [true, false, false, false]) := by decide
/-- V2.6: SELECT 3 with ones in bits 31:8. -/
theorem test_writeCsctrl_three : (nextOf (exec (.writeCsctrl 0xFFFFFF88) busy)).map (fun t => (t.csctrl, t.csOut))
    = some (0xFFFFFF88, [false, false, false, true]) := by decide
theorem test_readCsctrl : returned (exec .readCsctrl busy) = some (some 0x11, 0x0F) := by decide
/-- V2.1. -/
theorem test_readBad : (nextOf (exec (.readBad 0x00D) busy)).map (fun t => (t.result, t.diag, t.rxFifo))
    = some (some 0, some ⟨.read, 0x00D⟩, [0x5A]) := by decide
theorem test_writeBad : (nextOf (exec (.writeBad 0x011 0xFF) (onScript []))).map (fun t => (t.csctrl, t.diag))
    = some (0, some ⟨.write, 0x011⟩) := by decide
/-- V2.30: the block as created, the bus as it was. -/
theorem test_reset : exec .reset busy = .next { onScript [] with bus := busy.bus } := rfl
/-- V2.23: no line asserted, nobody answers. -/
theorem test_refBus_undriven : sees (exec (.writeDr 0x9F) onRef) = some (0x03, [0xFF], false) := by decide
/-- V1.3: the selected slave takes the command. -/
theorem test_refBus_command :
    (nextOf (exec (.writeDr 0x9F) { onRef with csOut := [true, false, false, false] })).map
      (fun t => (t.rxFifo, t.bus.env)) = some ([0x00], .ref illustrativeSlave (.idrd 0)) := by decide
/-- V2.40: OVR is bit 6 under the other layout. -/
theorem test_layoutTwo_overrun :
    sees (exec (.writeDr 0xA2) { State.create layoutTwo (.script [0x20]) with rxFifo := [0x10, 0x11], sr := 0x0B })
      = some (0x4B, [0x10, 0x11], false) := by decide
/-- V2.7: bits of lines that do not exist drive nothing. -/
theorem test_layoutTwo_lines :
    (nextOf (exec (.writeCsctrl 0xFF) (State.create layoutTwo (.script [])))).map (·.csOut) = some [true] := by decide

/-- R169: the slave starts idle, and RD_CMDS that hold ID_CMD are refused. -/
theorem test_attach_ref : (nextOf (attach referenceConfig (.ref illustrativeSlave))).map (·.bus)
    = some ⟨.ref illustrativeSlave .idle, []⟩ := by decide
theorem test_attach_bad_slave : attach referenceConfig (.ref { illustrativeSlave with rdCmds := [0x9F] })
    = .refused .illegalSlave := rfl

/-- An event word served as the first event after reset. -/
theorem test_step_first : (nextOf (step (State.reset.withFetchWord 14 0x000C))).map (fun t => (t.sr, t.events))
    = some (0x06, []) := by decide

/-! ### Witnesses: states and operands that meet the hypotheses of the statements -/

theorem test_busy_inv : busy.Inv := by constructor <;> decide
theorem test_idle_inv : (onScript [0xA5]).Inv := by constructor <;> decide
theorem test_layoutTwo_inv : (State.create layoutTwo (.script [])).Inv := by constructor <;> decide

/-- DecodeOfEncodeIsTheOperation, at the lowest and the highest bad offset. -/
theorem test_hyp_wellFormed : Instr.wellFormed (.readBad 0x001) = true ∧ Instr.wellFormed (.writeBad 0xFFF 0) = true := by
  decide
/-- SelectionIsTheFirstMatchingRow, the second clause. -/
theorem test_hyp_rows : (⟨.readCr1, 0x3FFF, 0x0000⟩ : SelectionRow) ∈ selectionTable.take 11 ∧
    (⟨.readCr1, 0x3FFF, 0x0000⟩ : SelectionRow).hits 0x0000 = true ∧
    (⟨.writeCsctrl, 0x3FFF, 0x1010⟩ : SelectionRow) ∈ selectionTable.take 11 ∧
    (⟨.writeCsctrl, 0x3FFF, 0x1010⟩ : SelectionRow).hits 0x1010 = true := by decide
/-- SelectionIsTheFirstMatchingRow, the two default rows: one below, one above the five offsets' highest. -/
theorem test_hyp_defaults : (decode ⟨0x0001#14, 0⟩).operation = .readBad ∧ (decode ⟨0x1FFF#14, 0⟩).operation = .writeBad ∧
    (decode ⟨0x0011#14, 0⟩).operation = .readBad ∧ (decode ⟨0x1014#14, 0⟩).operation = .writeBad := by decide
/-- StepServesTheOldestEvent. -/
theorem test_hyp_event : configLegal { busy with events := [readReg .dr, .reset] }.cfg = true ∧
    { busy with events := [readReg .dr, .reset] }.events = readReg .dr :: [.reset] := by decide
/-- StepWithoutEventChangesNothing, and the last clauses of LinesMoveOnlyOnWriteCsctrlAndReset and
OnlyWriteDrReachesTheBus. -/
theorem test_hyp_idle : configLegal busy.cfg = true ∧ busy.events = [] ∧ step busy = .next busy :=
  ⟨by decide, by decide, rfl⟩
/-- IllegalConfigurationIsRefused, each clause at its boundary. -/
theorem test_hyp_illegal : configLegal { busy with cfg := { referenceConfig with numLines := 5 } }.cfg = false ∧
    configLegal { referenceConfig with fifoCapacity := 0 } = false ∧
    (5 = 0 ∨ 4 < 5) ∧ ({ referenceConfig with numLines := 0 }.numLines = 0) ∧
    ({ referenceConfig with fifoCapacity := 0 }.fifoCapacity = 0) := by decide
/-- EveryOperationCompletes. -/
theorem test_hyp_reads : Operation.isRead .readDr = true ∧ Operation.isRead .writeDr = false ∧
    Operation.isRead .reset = false ∧ configLegal txFull.cfg = true := by decide
/-- CreatedStateMeetsTheInvariants: the smallest and the reference configuration. -/
theorem test_hyp_config : Bus.legal (.ref illustrativeSlave) = true ∧ Bus.legal (.free 0) = true ∧
    configLegal { layoutTwo with fifoCapacity := 1 } = true ∧ configLegal referenceConfig = true := by
  decide
/-- StepKeepsTheInvariants and ConfigurationNeverChanges. -/
theorem test_hyp_step : { busy with events := [readReg .dr] }.Inv ∧
    ∃ t, step { busy with events := [readReg .dr] } = .next t ∧ t.rxFifo = [] :=
  ⟨by constructor <;> decide, _, rfl, by decide⟩
/-- StatusReadsOneOfEightValues. -/
theorem test_hyp_reference : busy.Inv ∧ busy.cfg = referenceConfig := ⟨test_busy_inv, by decide⟩
/-- FifoBoundsAreKept, EngineDrainsInOrder and WriteDrOnFullTxDropsOnlyTheNewByte, both FIFOs at their capacity. -/
theorem test_hyp_full : configLegal { txFull with rxFifo := [0x22] }.cfg = true ∧
    { txFull with rxFifo := [0x22] }.txFifo.length = txFull.cfg.fifoCapacity ∧
    { txFull with rxFifo := [0x22] }.rxFifo.length ≤ txFull.cfg.fifoCapacity := by decide
/-- The same with rx_fifo empty. -/
theorem test_hyp_full_tx : txFull.txFifo.length = txFull.cfg.fifoCapacity ∧
    txFull.rxFifo.length ≤ txFull.cfg.fifoCapacity := by decide
/-- EveryAccessEndsInTheCombinator, CombinatorRefreshesStatusAndLine and every other statement on a legal configuration
alone, from a state outside the invariants. -/
theorem test_hyp_legal : Instr.readBad 0x014 ≠ .reset ∧ configLegal txFull.cfg = true := by decide
/-- ChipSelectUpdateDrivesEveryLine and WriteCsctrlDrivesTheLines, the lowest and the highest line. -/
theorem test_hyp_lines : configLegal busy.cfg = true ∧ 0 < busy.cfg.numLines ∧ 3 < busy.cfg.numLines ∧
    0 < layoutTwo.numLines ∧ ¬1 < layoutTwo.numLines := by decide
/-- WriteSrClearsWhereWrittenOne, its last premise: rx_fifo full at a quiescent point. -/
theorem test_hyp_rx_full : busy.Inv ∧ busy.rxFifo.length = busy.cfg.fifoCapacity := ⟨test_busy_inv, by decide⟩
/-- ReadBadReturnsZeroAndReports and WriteBadDiscardsAndReports. -/
theorem test_hyp_bad_offset : isRegisterOffset 0x001 = false ∧ isRegisterOffset 0x011 = false ∧
    isRegisterOffset 0xFFF = false := by decide
/-- ResetGivesTheResetValues, the lowest and the highest selector. -/
theorem test_hyp_reset : (0x2000#14).getLsbD 13 = true ∧ (0x3FFF#14).getLsbD 13 = true := by decide
/-- LinesMoveOnlyOnWriteCsctrlAndReset and OnlyWriteDrReachesTheBus, their first clauses. -/
theorem test_hyp_other : (Instr.writeCr1 0).operation ≠ .writeCsctrl ∧ (Instr.writeCr1 0).operation ≠ .reset ∧
    (Instr.writeCr1 0).operation ≠ .writeDr := by decide
/-- ErrorFlagsAreSticky: both flags set, both clear. -/
theorem test_hyp_sticky : configLegal busy.cfg = true ∧ flag busy busy.cfg.srOvr = true ∧
    flag busy busy.cfg.srUdr = true ∧ configLegal (onScript []).cfg = true ∧ flag (onScript []) referenceConfig.srOvr = false ∧
    flag (onScript []) referenceConfig.srUdr = false := by decide
/-- DiagnosticExactlyForBadOffsets. -/
theorem test_hyp_diag : (∃ o, Instr.readBad 0x014 = .readBad o) ∧ (∃ o w, Instr.writeBad 0x014 1 = .writeBad o w) ∧
    Instr.readDr.operation ≠ .readBad ∧ Instr.readDr.operation ≠ .writeBad := ⟨⟨_, rfl⟩, ⟨_, _, rfl⟩, by decide, by decide⟩
/-- OperationsButOnDrAreIdempotent, Cr1InfluencesNothing and SsoeHasNoFunction. -/
theorem test_hyp_idempotent : (Instr.writeSr 0x0C).operation ≠ .readDr ∧ (Instr.writeSr 0x0C).operation ≠ .writeDr ∧
    (Instr.writeSr 0x0C).operation ≠ .readCr1 ∧ (Instr.writeSr 0x0C).operation ≠ .readCr2 ∧
    configLegal busy.cfg = true ∧ busy.Inv := ⟨by decide, by decide, by decide, by decide, by decide, test_busy_inv⟩
/-- TransmitEnableHoldsTheLine, both clauses. -/
theorem test_hyp_txeie : busy.Inv ∧ getBit busy.cr2 busy.cfg.cr2Txeie = true ∧ (onScript [0xA5]).Inv ∧
    getBit (onScript [0xA5]).cr2 referenceConfig.cr2Txeie = false ∧
    getBit (onScript [0xA5]).cr2 referenceConfig.cr2Rxneie = false ∧
    getBit (onScript [0xA5]).cr2 referenceConfig.cr2Errie = false :=
  ⟨test_busy_inv, by decide, test_idle_inv, by decide, by decide, by decide⟩
/-- ResetForgetsTheBlock: two states of the block that differ. -/
theorem test_hyp_forgets : busy.cfg = (onScript [0x42]).cfg ∧ busy.bus = (onScript [0x42]).bus ∧
    busy.events = (onScript [0x42]).events ∧ busy ≠ onScript [0x42] := by decide
/-- RoundTripReturnsTheAnswer. -/
theorem test_hyp_round_trip : (onScript [0xA5]).Inv ∧ (onScript [0xA5]).rxFifo = [] := ⟨test_idle_inv, by decide⟩
/-- BusSeesEveryWriteInOrder: two transfers, with a reset between. -/
theorem test_hyp_events :
    { busy with events := [writeReg .dr 0xA1, .reset, writeReg .dr 0xA2] }.Inv ∧
    [writeReg .dr 0xA1, .reset, writeReg .dr 0xA2].filterMap sentByte = [0xA1, 0xA2] :=
  ⟨by constructor <;> decide, by decide⟩
/-- ErrorRecoveryRestoresTheBlock, with a byte held and with none. -/
theorem test_hyp_recovery :
    { busy with events := [⟨0x1008, 0x0C⟩, ⟨0x000C, 0⟩] }.Inv ∧
    [⟨0x1008, 0x0C⟩, ⟨0x000C, 0⟩] = clrErrEvents busy.cfg ++ List.replicate busy.rxFifo.length (readReg .dr) ∧
    { onScript [0xA5] with events := clrErrEvents referenceConfig }.Inv :=
  ⟨by constructor <;> decide, by decide, by constructor <;> decide⟩
/-- ReferenceSlaveStartsIdle, both clauses. -/
theorem test_hyp_slave : configLegal referenceConfig = true ∧ illustrativeSlave.idCmd ∉ illustrativeSlave.rdCmds ∧
    ({ illustrativeSlave with rdCmds := [0x03, 0x9F] } : SlaveParams).idCmd ∈ [0x03, 0x9F] := by decide
/-- ReferenceSlaveKeepsItsParameters, with a step that moves the slave. -/
theorem test_hyp_slave_step :
    { onRef with csOut := [true, false, false, false], events := [writeReg .dr 0x9F] }.bus.env
      = .ref illustrativeSlave .idle ∧
    ∃ t, step { onRef with csOut := [true, false, false, false], events := [writeReg .dr 0x9F] } = .next t ∧
      t.bus.env = .ref illustrativeSlave (.idrd 0) := ⟨by decide, _, rfl, by decide⟩
/-- ScriptBusAnswersInOrder, a script used up exactly. -/
theorem test_hyp_script : ([0xA1, 0xA2] : List Byte).length ≤ ([0x01, 0x02] : List Byte).length := by decide
/-- WindowAddressesAreOffsets: the first address above the window, wherever the window is. -/
theorem test_hyp_window : Config.baseAddr + 0x1000 < Config.baseAddr ∨ Config.baseAddr + 0x1000 ≤ Config.baseAddr + 0x1000 :=
  .inr (Nat.le_refl _)
/-- SelectAssertsOneLine, the highest line of the reference configuration. -/
theorem test_hyp_select : configLegal { busy with events := selectEvents 3 }.cfg = true ∧
    (3 : Fin 4).val < busy.cfg.numLines ∧ { busy with events := selectEvents 3 }.events = selectEvents 3 := by decide

end Sys2Proof.Tests
end

section
/-! PROOFS. The chip-select lines: which operations move them, and where WRITE_CSCTRL drives them (spec/10_state.md R31). -/

namespace Sys2Proof.Machine

/-- Only the handlers of WRITE_CSCTRL and of RESET touch the chip-select lines. -/
theorem handler_csOut_of_ne {i : Instr} (hw : i.operation ≠ .writeCsctrl) (hr : i.operation ≠ .reset) (s : State) :
    (handler i s).csOut = s.csOut := by
  cases i with
  | reset => exact absurd rfl hr
  | writeCsctrl _ => exact absurd rfl hw
  | _ => simp [handler]

theorem handler_writeCsctrl_csOut (w : Word) (s : State) :
    (handler (.writeCsctrl w) s).csOut = lineLevels s.cfg w := rfl

theorem lineLevels_getElem? {c : Config} (w : Word) {i : Nat} (hi : i < c.numLines) :
    (lineLevels c w)[i]? = some (lineLevel w i) := by
  simp [lineLevels, hi]

/-- Every existing line of a legal configuration has a bit in EN and one in ACT. -/
theorem line_lt_four {c : Config} (hl : configLegal c = true) {i : Nat} (hi : i < c.numLines) : i < 4 := by
  obtain ⟨-, hmax, -⟩ := (configLegal_iff c).1 hl
  omega

/-- Settles O41: the epilogue of an access leaves the lines alone, so its handler decides; an idle step keeps the state. -/
theorem linesMoveOnlyOnWriteCsctrlAndReset : Obligations.LinesMoveOnlyOnWriteCsctrlAndReset := by
  unfold Obligations.LinesMoveOnlyOnWriteCsctrlAndReset
  refine ⟨fun i s hw hr => ?_, fun s w hl => ?_, fun s t he h => ?_⟩
  · have hne : i ≠ .reset := fun e => hr (e ▸ rfl)
    refine ⟨_, exec_access hne s, ?_⟩
    rw [interruptCombinator_csOut, handler_csOut_of_ne hw hr]
  · refine ⟨_, exec_access (by simp) s, fun i hi => ?_⟩
    rw [interruptCombinator_csOut, handler_writeCsctrl_csOut, lineLevels_getElem? w hi,
      lineLevel_eq w (line_lt_four hl hi)]
  · obtain ⟨-, ⟨-, rfl⟩ | ⟨e, rest, hev, -⟩⟩ := step_cases h
    · rfl
    · simp [he] at hev

end Sys2Proof.Machine
end

section
/-! PROOFS. The selection table and the decoder agree (spec/30_encoding.md R72). -/

namespace Sys2Proof

/-- An event's selector, from its three fields (spec/30_encoding.md R71). -/
theorem Event.sel_eq_selectorOf (e : Event) : e.sel = selectorOf e.rst e.rw e.offset :=
  (selectorOf_fields e.sel).symm

/-- Row 1 of the selection table. -/
def resetRow : SelectionRow := ⟨.reset, 0x2000, 0x2000⟩

/-- Of rows 1 to 11 all but RESET's compare the whole selector, with one that names a register's offset. -/
theorem exactRow_cases {r : SelectionRow} (hr : r ∈ selectionTable.take 11) :
    r = resetRow ∨ (r.mask = 0x3FFF ∧ isRegisterOffset (r.pattern.extractLsb' 0 12) = true) := by
  revert r
  decide

/-- A row's own pattern is matched by no other of rows 1 to 11. -/
theorem exactRow_eq_of_hits_pattern {r q : SelectionRow} (hr : r ∈ selectionTable.take 11)
    (hq : q ∈ selectionTable.take 11) : q.hits r.pattern = true → q = r := by
  have table : ∀ r ∈ selectionTable.take 11, ∀ q ∈ selectionTable.take 11, q.hits r.pattern = true → q = r := by decide
  exact table r hr q hq

/-- RESET's row looks at rst alone. -/
theorem hits_resetRow (sel : Selector) : resetRow.hits sel = sel.getLsbD 13 := by
  have hand : sel &&& 0x2000#14 = if sel.getLsbD 13 then 0x2000#14 else 0#14 := BitVec.and_twoPow sel 13
  change (sel &&& 0x2000#14 == 0x2000#14) = _
  rw [hand]
  cases sel.getLsbD 13 <;> rfl

/-- A row whose mask takes in every bit matches its pattern alone. -/
theorem eq_pattern_of_hits {r : SelectionRow} {sel : Selector} (hm : r.mask = 0x3FFF) (h : r.hits sel = true) :
    sel = r.pattern := by
  rw [SelectionRow.hits, hm, beq_iff_eq] at h
  exact (BitVec.and_allOnes (x := sel)).symm.trans h

/-- Rows 1 to 11 exclude one another. -/
theorem exactRow_unique {sel : Selector} {r q : SelectionRow} (hr : r ∈ selectionTable.take 11)
    (hq : q ∈ selectionTable.take 11) (hrs : r.hits sel = true) (hqs : q.hits sel = true) : r = q := by
  obtain rfl | ⟨hm, -⟩ := exactRow_cases hr
  · obtain rfl | ⟨hm, -⟩ := exactRow_cases hq
    · rfl
    · exact exactRow_eq_of_hits_pattern hq hr (eq_pattern_of_hits hm hqs ▸ hrs)
  · exact (exactRow_eq_of_hits_pattern hr hq (eq_pattern_of_hits hm hrs ▸ hqs)).symm

/-- An access to a bad offset matches none of rows 1 to 11. -/
theorem exactRows_find?_bad (rw : Bool) {o : Offset} (ho : isRegisterOffset o = false) :
    (selectionTable.take 11).find? (·.hits (selectorOf false rw o)) = none := by
  rw [List.find?_eq_none]
  intro r hr h
  obtain rfl | ⟨hm, hreg⟩ := exactRow_cases hr
  · rw [hits_resetRow, selectorOf_rst] at h
    exact Bool.false_ne_true h
  · rw [← eq_pattern_of_hits hm h, selectorOf_offset, ho] at hreg
    exact Bool.false_ne_true hreg

theorem selectRow_reset {sel : Selector} (h : sel.getLsbD 13 = true) : selectRow sel = some resetRow :=
  List.find?_cons_of_pos ((hits_resetRow sel).trans h)

/-- An access to a bad offset is left to the default row of its direction. -/
theorem selectRow_bad (rw : Bool) {o : Offset} (ho : isRegisterOffset o = false) :
    selectRow (selectorOf false rw o)
      = some (if rw then ⟨.writeBad, 0x3000, 0x1000⟩ else ⟨.readBad, 0x3000, 0x0000⟩) := by
  have hsplit : selectionTable = selectionTable.take 11 ++ selectionTable.drop 11 := (List.take_append_drop 11 _).symm
  have hdrop : selectionTable.drop 11 = [⟨.readBad, 0x3000, 0x0000⟩, ⟨.writeBad, 0x3000, 0x1000⟩] := rfl
  rw [selectRow, hsplit, List.find?_append, exactRows_find?_bad rw ho, Option.none_or, hdrop]
  simp only [List.find?, SelectionRow.hits, Laws.RowMatch.selector_top]
  cases rw <;> rfl

theorem decodeWrite_operation (o : Offset) (v w : Word) : (decodeWrite o v).operation = (decodeWrite o w).operation := by
  unfold decodeWrite
  split_ifs <;> rfl

/-- The first matching row of an access is that of the register its offset names, or else the default row. -/
theorem selectRow_access_operation (rw : Bool) (o : Offset) (v : Word) :
    (selectRow (selectorOf false rw o)).map (·.operation)
      = some (if rw then (decodeWrite o v).operation else (decodeRead o).operation) := by
  rcases ho : isRegisterOffset o with _ | _
  · rw [selectRow_bad rw ho, decodeRead_bad ho, decodeWrite_bad v ho]
    cases rw <;> rfl
  · have table : ∀ rw, ∀ o ∈ registerOffsets, (selectRow (selectorOf false rw o)).map (·.operation)
        = some (if rw then (decodeWrite o 0).operation else (decodeRead o).operation) := by decide
    rw [decodeWrite_operation o v 0]
    exact table rw o (by simpa [isRegisterOffset] using ho)

/-- Every event has a first matching row, and it names the decoded operation. -/
theorem selectRow_operation (e : Event) : (selectRow e.sel).map (·.operation) = some (decode e).operation := by
  obtain ⟨hrst, hd⟩ | ⟨hrst, hrw, hd⟩ | ⟨hrst, hrw, hd⟩ := decode_cases e
  · rw [selectRow_reset hrst, hd]; rfl
  · rw [e.sel_eq_selectorOf, hrst, selectRow_access_operation e.rw e.offset e.wdata, hd, hrw, if_pos rfl]
  · rw [e.sel_eq_selectorOf, hrst, selectRow_access_operation e.rw e.offset e.wdata, hd, hrw, if_neg Bool.false_ne_true]

theorem isRegisterOffset_eq_false_iff (o : Offset) : isRegisterOffset o = false ↔ o ∉ registerOffsets := by
  rw [isRegisterOffset, List.contains_eq_mem, decide_eq_false_iff_not]

theorem decodeRead_operation_isRead (o : Offset) : (decodeRead o).operation.isRead = true := by
  unfold decodeRead
  split_ifs <;> rfl

theorem decodeWrite_operation_isRead (o : Offset) (v : Word) : (decodeWrite o v).operation.isRead = false := by
  unfold decodeWrite
  split_ifs <;> rfl

theorem decodeRead_operation_eq_readBad_iff (o : Offset) :
    (decodeRead o).operation = .readBad ↔ o ∉ registerOffsets := by
  have table : ∀ o ∈ registerOffsets, (decodeRead o).operation ≠ .readBad := by decide
  refine ⟨fun h ho => table o ho h, fun ho => ?_⟩
  rw [decodeRead_bad ((isRegisterOffset_eq_false_iff o).2 ho)]; rfl

theorem decodeWrite_operation_eq_writeBad_iff (o : Offset) (v : Word) :
    (decodeWrite o v).operation = .writeBad ↔ o ∉ registerOffsets := by
  have table : ∀ o ∈ registerOffsets, (decodeWrite o 0).operation ≠ .writeBad := by decide
  refine ⟨fun h ho => table o ho (decodeWrite_operation o v 0 ▸ h), fun ho => ?_⟩
  rw [decodeWrite_bad v ((isRegisterOffset_eq_false_iff o).2 ho)]; rfl

/-- READ_BAD without priorities: a read of an offset that is no register's. -/
theorem decode_operation_eq_readBad_iff (e : Event) :
    (decode e).operation = .readBad ↔ e.rst = false ∧ e.rw = false ∧ e.offset ∉ registerOffsets := by
  obtain ⟨hrst, hd⟩ | ⟨hrst, hrw, hd⟩ | ⟨hrst, hrw, hd⟩ := decode_cases e
  · simp [hd, hrst, Instr.operation]
  · have hne : (decodeWrite e.offset e.wdata).operation ≠ .readBad := fun h => by
      simpa [h, Operation.isRead] using decodeWrite_operation_isRead e.offset e.wdata
    simp [hd, hrw, hne]
  · simp [hd, hrst, hrw, decodeRead_operation_eq_readBad_iff]

/-- WRITE_BAD without priorities: a write to an offset that is no register's. -/
theorem decode_operation_eq_writeBad_iff (e : Event) :
    (decode e).operation = .writeBad ↔ e.rst = false ∧ e.rw = true ∧ e.offset ∉ registerOffsets := by
  obtain ⟨hrst, hd⟩ | ⟨hrst, hrw, hd⟩ | ⟨hrst, hrw, hd⟩ := decode_cases e
  · simp [hd, hrst, Instr.operation]
  · simp [hd, hrst, hrw, decodeWrite_operation_eq_writeBad_iff]
  · have hne : (decodeRead e.offset).operation ≠ .writeBad := fun h => by
      simpa [h, Operation.isRead] using decodeRead_operation_isRead e.offset
    simp [hd, hrw, hne]

/-- In a window that reaches above CSCTRL's offset, 0x010, all offsets but five are bad: 12 up to there, and all above. -/
theorem length_filter_badOffsets (n : Nat) :
    ((List.range (0x011 + n)).filter fun k => !([0x000, 0x004, 0x008, 0x00C, 0x010] : List Nat).contains k).length
      = 12 + n := by
  have above : ∀ k ∈ (List.range n).map (0x011 + ·),
      (!([0x000, 0x004, 0x008, 0x00C, 0x010] : List Nat).contains k) = true := by
    intro k hk
    obtain ⟨m, -, rfl⟩ := List.mem_map.1 hk
    have hne : ∀ c ≤ 0x010, 0x011 + m ≠ c := fun c hc => by omega
    simp [hne]
  rw [List.range_add, List.filter_append, List.length_append, List.filter_eq_self.2 above, List.length_map,
    List.length_range]
  rfl

/-- Settles O4: each clause is its lemma above. -/
theorem selectionIsTheFirstMatchingRow : Obligations.SelectionIsTheFirstMatchingRow := by
  unfold Obligations.SelectionIsTheFirstMatchingRow
  exact ⟨fun e => Option.map_eq_some_iff.1 (selectRow_operation e), fun _ _ _ => exactRow_unique,
    decode_operation_eq_readBad_iff, decode_operation_eq_writeBad_iff, length_filter_badOffsets 0xFEF⟩

end Sys2Proof
end

section
/-! PROOFS. The FIFO primitives: what a push and a pop do, and the order any run of them keeps
(spec/41_fifo_pair.md R103, R104, R106). -/

namespace Sys2Proof.Machine

/-- The bytes popped so far and then those still queued are the bytes of `q` and then those successfully pushed (R106). -/
def FifoTrace.InOrder (q : List Byte) (f : FifoTrace) : Prop := f.popped ++ f.queue = q ++ f.pushed

/-- A push leaves the queue and the record alone or puts its byte at the end of both. -/
theorem FifoTrace.apply_push_cases (cap : Nat) (f : FifoTrace) (b : Byte) :
    (f.queue.length = cap ∧ f.apply cap (.push b) = f) ∨
      (f.queue.length ≠ cap ∧
        f.apply cap (.push b) = { f with queue := f.queue ++ [b], pushed := f.pushed ++ [b] }) := by
  obtain ⟨h, e⟩ | ⟨h, e⟩ := fifoPush_cases cap f.queue b
  · exact .inl ⟨h, by simp [apply, e]⟩
  · exact .inr ⟨h, by simp [apply, e]⟩

/-- A pop leaves an empty queue and the record alone, or moves the oldest byte from the queue to the end of the record. -/
theorem FifoTrace.apply_pop_cases (cap : Nat) (f : FifoTrace) :
    (f.queue = [] ∧ f.apply cap .pop = f) ∨
      (∃ b rest, f.queue = b :: rest ∧
        f.apply cap .pop = { f with queue := rest, popped := f.popped ++ [b] }) := by
  rcases f with ⟨_ | ⟨b, rest⟩, pushed, popped⟩
  · exact .inl ⟨rfl, rfl⟩
  · exact .inr ⟨b, rest, rfl, rfl⟩

/-- One primitive keeps the order: a push adds its byte to the end of both sides, a pop moves one byte within the left
side, and a failed one changes neither. -/
theorem FifoTrace.InOrder.apply {q : List Byte} {f : FifoTrace} (h : f.InOrder q) (cap : Nat) (op : FifoOp) :
    (f.apply cap op).InOrder q := by
  unfold InOrder at h
  cases op with
  | push b =>
    obtain ⟨-, e⟩ | ⟨-, e⟩ := f.apply_push_cases cap b
    · rwa [e]
    · simp only [e, InOrder, ← List.append_assoc, h]
  | pop =>
    obtain ⟨-, e⟩ | ⟨b, rest, hq, e⟩ := f.apply_pop_cases cap
    · rwa [e]
    · simpa [e, InOrder, hq] using h

/-- Every run of primitives keeps the order. -/
theorem FifoTrace.InOrder.foldl {q : List Byte} (cap : Nat) (ops : List FifoOp) {f : FifoTrace} (h : f.InOrder q) :
    (ops.foldl (FifoTrace.apply cap) f).InOrder q := by
  induction ops generalizing f with
  | nil => exact h
  | cons op ops ih => exact ih (h.apply cap op)

theorem FifoTrace.inOrder_start (q : List Byte) : (⟨q, [], []⟩ : FifoTrace).InOrder q := (List.append_nil q).symm

/-- Settles O21: the empty trace is in order and every primitive keeps it so. -/
theorem fifoKeepsTheOrder : Obligations.FifoKeepsTheOrder := by
  unfold Obligations.FifoKeepsTheOrder
  intro cap q ops
  exact (FifoTrace.inOrder_start q).foldl cap ops

/-- Settles O19, by the two cases of a push. -/
theorem pushAppendsOrDropsTheNewByte : Obligations.PushAppendsOrDropsTheNewByte := by
  unfold Obligations.PushAppendsOrDropsTheNewByte
  intro cap q b
  obtain ⟨hfull, e⟩ | ⟨hroom, e⟩ := fifoPush_cases cap q b
  · rw [e, if_pos hfull]
  · rw [e, if_neg hroom]

/-- Settles O20: each clause is the equation of pop for that form of the queue. -/
theorem popTakesTheOldestByte : Obligations.PopTakesTheOldestByte := by
  unfold Obligations.PopTakesTheOldestByte
  exact ⟨fifoPop_nil, fifoPop_cons⟩

end Sys2Proof.Machine
end

section
/-! PROOFS. The data register: what READ_DR takes and reports (spec/42_data_register_and_transfer_engine.md R111), and which
operations reach the bus (R113). -/

namespace Sys2Proof.Machine

/-! ### READ_DR -/

/-- A selector with rst = rw = 0 selects the read its offset names, whatever the write data (R72, R73). -/
theorem decode_readSelector (o : Offset) (w : Word) : decode ⟨selectorOf false false o, w⟩ = decodeRead o := by
  simp only [decode, Event.rst, Event.rw, Event.offset, selectorOf_rst, selectorOf_rw, selectorOf_offset,
    Bool.false_eq_true, if_false]

/-- The epilogue leaves what EpilogueDone says: in a legal configuration its store of RXNE keeps the TXE stored before. -/
theorem epilogueDone_interruptCombinator {s : State} (hl : configLegal s.cfg = true) :
    EpilogueDone (interruptCombinator s) := by
  obtain ⟨hrxneTxe, -⟩ := srPositions_ne hl
  exact {
    txe := by
      rw [interruptCombinator_cfg, flag_interruptCombinator, if_neg hrxneTxe.symm, if_pos rfl, interruptCombinator_txFifo]
    rxne := by rw [interruptCombinator_cfg, flag_interruptCombinator, if_pos rfl, interruptCombinator_rxFifo]
    irq := rfl }

/-- READ_DR takes the oldest byte of rx_fifo, if there is one, and returns it zero-extended, or else 0; besides rx_fifo
and the result it writes sr, irq_out and the cleared diagnostic alone (R111). -/
theorem readDr_frame (s : State) :
    interruptCombinator (handler .readDr s)
      = { s with
          rxFifo := s.rxFifo.tail
          sr := (interruptCombinator (handler .readDr s)).sr
          irqOut := (interruptCombinator (handler .readDr s)).irqOut
          result := some (match s.rxFifo with | [] => 0x00000000 | b :: _ => BitVec.setWidth 32 b)
          diag := none } := by
  have hresult : (handler .readDr s).result = _ := popRx_result (beginStep s)
  have hrest : handler .readDr s
      = { s with
          rxFifo := s.rxFifo.tail
          sr := (handler .readDr s).sr
          result := (handler .readDr s).result
          diag := none } := by
    apply state_ext <;> simp [handler, popRx_rxFifo]
  rw [interruptCombinator_frame, hrest, hresult]
  rfl

/-- Every bit of sr after a READ_DR: the epilogue's RXNE and TXE, UDR set if rx_fifo was empty, every other as it was. -/
theorem flag_readDr (s : State) (b : Fin 32) :
    flag (interruptCombinator (handler .readDr s)) b
      = if b = s.cfg.srRxne then !s.rxFifo.tail.isEmpty
        else if b = s.cfg.srTxe then s.txFifo.isEmpty
        else if b = s.cfg.srUdr then flag s b || s.rxFifo.isEmpty
        else flag s b := by
  have hrx : (handler .readDr s).rxFifo = s.rxFifo.tail := popRx_rxFifo (beginStep s)
  have htx : (handler .readDr s).txFifo = s.txFifo := popRx_txFifo (beginStep s)
  rw [flag_interruptCombinator, handler_cfg, hrx, htx, flag_handler_readDr]

/-- UDR after a READ_DR, in a legal configuration, whose epilogue does not write UDR (R111). -/
theorem flag_readDr_srUdr {s : State} (hl : configLegal s.cfg = true) :
    flag (interruptCombinator (handler .readDr s)) s.cfg.srUdr = (flag s s.cfg.srUdr || s.rxFifo.isEmpty) := by
  obtain ⟨-, hrxneUdr, -, -, htxeUdr, -⟩ := srPositions_ne hl
  rw [flag_readDr, if_neg hrxneUdr.symm, if_neg htxeUdr.symm, if_pos rfl]

theorem srBitsKept_readDr (s : State) :
    SrBitsKept s (interruptCombinator (handler .readDr s)) [s.cfg.srUdr, s.cfg.srTxe, s.cfg.srRxne] := by
  intro b hb
  simp only [List.mem_cons, List.not_mem_nil, or_false, not_or] at hb
  obtain ⟨hudr, htxe, hrxne⟩ := hb
  rw [flag_readDr, if_neg hrxne, if_neg htxe, if_neg hudr]

/-- At a quiescent point TXE is 1 already and tx_fifo stays empty, so TXE stays too. -/
theorem srBitsKept_readDr_of_inv {s : State} (h : s.Inv) :
    SrBitsKept s (interruptCombinator (handler .readDr s)) [s.cfg.srUdr, s.cfg.srRxne] := by
  intro b hb
  simp only [List.mem_cons, List.not_mem_nil, or_false, not_or] at hb
  obtain ⟨hudr, hrxne⟩ := hb
  by_cases htxe : b = s.cfg.srTxe
  · have hset : flag s s.cfg.srTxe = true := h.txe.2 (by rw [h.txEmpty]; rfl)
    rw [flag_readDr, if_neg hrxne, if_pos htxe, h.txEmpty, htxe, hset]; rfl
  · exact srBitsKept_readDr s b (by simp [hudr, htxe, hrxne])

/-- Settles O32: the handler's frame and bits, then the epilogue. -/
theorem readDrPopsOrUnderruns : Obligations.ReadDrPopsOrUnderruns := by
  unfold Obligations.ReadDrPopsOrUnderruns
  refine ⟨decode_readSelector 0x00C, fun s hl => ⟨_, exec_access (by simp) s, ?_, flag_readDr_srUdr hl, srBitsKept_readDr s, ?_⟩,
    fun s h => ⟨_, exec_access (by simp) s, srBitsKept_readDr_of_inv h⟩⟩
  · exact readDr_frame s
  · exact epilogueDone_interruptCombinator (by rwa [handler_cfg])

/-! ### What reaches the bus -/

/-- No handler but WRITE_DR's touches the bus. -/
theorem handler_bus_of_ne {i : Instr} (hw : i.operation ≠ .writeDr) (s : State) : (handler i s).bus = s.bus := by
  cases i with
  | writeDr _ => exact absurd rfl hw
  | _ => simp [handler]

/-- Every operation but WRITE_DR, RESET among them, completes with the bus as it was. -/
theorem exec_bus_of_ne {i : Instr} (hw : i.operation ≠ .writeDr) (s : State) :
    ∃ t, exec i s = .next t ∧ t.bus = s.bus := by
  by_cases hr : i = .reset
  · subst hr
    exact ⟨_, exec_reset s, handler_bus_of_ne hw s⟩
  · exact ⟨_, exec_access hr s, (interruptCombinator_bus _).trans (handler_bus_of_ne hw s)⟩

/-- An iteration of the engine makes one transfer. -/
theorem engineIteration_log_length (s : State) : (engineIteration s).bus.log.length = s.bus.log.length + 1 := by
  simp [engineIteration, busTransfer_log]

/-- The loop makes one transfer an iteration. -/
theorem engineLoop_log_length (q : List Byte) (s : State) :
    (engineLoop q s).bus.log.length = s.bus.log.length + q.length := by
  induction q generalizing s with
  | nil => rfl
  | cons t q ih => rw [engineLoop, ih, engineIteration_log_length, List.length_cons]; omega

/-- The engine makes as many transfers as tx_fifo holds bytes (R112). -/
theorem transferEngine_log_length (s : State) :
    (transferEngine s).bus.log.length = s.bus.log.length + s.txFifo.length := by
  simp [transferEngine, engineLoop_log_length]

/-- A push into an empty tx_fifo succeeds, since the capacity of a legal configuration is at least 1. -/
theorem pushTx_txFifo_of_empty {s : State} (hl : configLegal s.cfg = true) (h : s.txFifo = []) (b : Byte) :
    (pushTx b s).txFifo = [b] := by
  obtain ⟨-, -, hcap, -⟩ := (configLegal_iff s.cfg).1 hl
  have hroom : ([] : List Byte).length ≠ s.cfg.fifoCapacity := by rw [List.length_nil]; omega
  rw [pushTx_txFifo, h, if_neg hroom, List.nil_append]

/-- WRITE_DR at a quiescent point queues one byte, so the engine makes one transfer (R115). -/
theorem handler_writeDr_log_length {s : State} (h : s.Inv) (w : Word) :
    (handler (.writeDr w) s).bus.log.length = s.bus.log.length + 1 := by
  have hq : (pushTx (txByte w) (beginStep s)).txFifo = [txByte w] :=
    pushTx_txFifo_of_empty (s := beginStep s) h.legal h.txEmpty (txByte w)
  rw [handler, transferEngine_log_length, hq, pushTx_bus, beginStep_bus, List.length_singleton]

/-- Settles O42: no handler but WRITE_DR's and no epilogue touches the bus, and an idle step keeps the state. -/
theorem onlyWriteDrReachesTheBus : Obligations.OnlyWriteDrReachesTheBus := by
  unfold Obligations.OnlyWriteDrReachesTheBus
  refine ⟨fun i s hw => exec_bus_of_ne hw s, fun s t he h => ?_, fun s w h => ⟨_, exec_access (by simp) s, ?_⟩⟩
  · obtain ⟨-, ⟨-, rfl⟩ | ⟨e, rest, hev, -⟩⟩ := step_cases h
    · rfl
    · simp [he] at hev
  · rw [interruptCombinator_bus, handler_writeDr_log_length h w]

end Sys2Proof.Machine
end

section
/-! PROOFS. The control and status registers: reads of a stored register, the write-1-to-clear of SR, and the recovery from
an error (spec/43_control_and_status_registers.md R130, R132, R135, R136). -/

namespace Sys2Proof.Machine

/-! ### The epilogue -/

/-- The epilogue writes no bit of sr but TXE and RXNE. -/
theorem srBitsKept_interruptCombinator (s : State) :
    SrBitsKept s (interruptCombinator s) [s.cfg.srTxe, s.cfg.srRxne] := by
  intro b hb
  simp only [List.mem_cons, List.not_mem_nil, or_false, not_or] at hb
  obtain ⟨htxe, hrxne⟩ := hb
  rw [flag_interruptCombinator, if_neg hrxne, if_neg htxe]

theorem State.Inv.flag_srRxne {s : State} (h : s.Inv) : flag s s.cfg.srRxne = !s.rxFifo.isEmpty := by
  rw [Bool.eq_iff_iff, h.rxne]
  cases s.rxFifo <;> simp

theorem State.Inv.flag_srTxe {s : State} (h : s.Inv) : flag s s.cfg.srTxe = s.txFifo.isEmpty := by
  rw [Bool.eq_iff_iff, h.txe]
  cases s.txFifo <;> simp

/-- At a quiescent point, whatever the outputs of the step, the epilogue has nothing to do. -/
theorem State.Inv.interruptCombinator_outputs {s : State} (h : s.Inv) (r : Option Word) (d : Option BadOffset) :
    interruptCombinator { s with result := r, diag := d } = { s with result := r, diag := d } :=
  interruptCombinator_eq_self h.flag_srRxne h.flag_srTxe h.irq

/-- An access that leaves the configuration, the lines and tx_fifo alone, adds nothing to rx_fifo and writes only bits the
invariants do not fix or the epilogue recomputes keeps the invariants. -/
theorem State.Inv.of_epilogueDone {s t : State} (h : s.Inv) (cfg : t.cfg = s.cfg) (csctrl : t.csctrl = s.csctrl)
    (csOut : t.csOut = s.csOut) (txFifo : t.txFifo = s.txFifo) (rxFifo : t.rxFifo.length ≤ s.rxFifo.length)
    (kept : SrBitsKept s t [s.cfg.srOvr, s.cfg.srUdr, s.cfg.srTxe, s.cfg.srRxne]) (done : EpilogueDone t) : t.Inv where
  legal := cfg ▸ h.legal
  rxne := by rw [done.rxne]; cases t.rxFifo <;> simp
  txe := by rw [done.txe]; cases t.txFifo <;> simp
  bsy := by
    obtain ⟨-, -, -, hrxne, -, -, htxe, -, hudr, hovr⟩ := srPositions_ne h.legal
    rw [cfg, kept _ (by simp [hrxne.symm, htxe.symm, hudr.symm, hovr.symm]), h.bsy]
  lines := by rw [csOut, cfg, h.lines]
  cs := by rw [csOut, cfg, csctrl]; exact h.cs
  txEmpty := txFifo.trans h.txEmpty
  rxBound := cfg ▸ rxFifo.trans h.rxBound
  irq := done.irq
  unnamed b hb := by
    rw [cfg] at hb
    have hkept : b ∉ [s.cfg.srOvr, s.cfg.srUdr, s.cfg.srTxe, s.cfg.srRxne] := fun hmem => hb (by
      simp only [List.mem_cons, List.not_mem_nil, or_false] at hmem ⊢
      tauto)
    rw [kept b hkept, h.unnamed b hb]

/-! ### Reads of a stored register -/

/-- An access whose handler does no more than return a value: its frame, in every state of a legal configuration. -/
theorem storedRead_frame {i : Instr} {v : Word} {s : State}
    (hi : exec i s = .next (interruptCombinator (returnValue v (beginStep s)))) (hl : configLegal s.cfg = true) :
    ∃ t, exec i s = .next t ∧ t = { s with sr := t.sr, irqOut := t.irqOut, result := some v, diag := none } ∧
      SrBitsKept s t [s.cfg.srTxe, s.cfg.srRxne] ∧ EpilogueDone t :=
  ⟨_, hi, interruptCombinator_frame _, srBitsKept_interruptCombinator (returnValue v (beginStep s)),
    epilogueDone_interruptCombinator (s := returnValue v (beginStep s)) hl⟩

/-- At a quiescent point such an access changes nothing but the outputs of the step. -/
theorem storedRead_of_inv {i : Instr} {v : Word} {s : State}
    (hi : exec i s = .next (interruptCombinator (returnValue v (beginStep s)))) (h : s.Inv) :
    exec i s = .next { s with result := some v, diag := none } :=
  hi.trans (congrArg Host.Outcome.next (h.interruptCombinator_outputs (some v) none))

theorem exec_readCr1 (s : State) : exec .readCr1 s = .next (interruptCombinator (returnValue s.cr1 (beginStep s))) :=
  exec_access (by simp) s

theorem exec_readCr2 (s : State) : exec .readCr2 s = .next (interruptCombinator (returnValue s.cr2 (beginStep s))) :=
  exec_access (by simp) s

/-- Settles O26: READ_CR1 is a read of a stored register, and WRITE_CR1 stores the word it is given. -/
theorem readCr1ReturnsCr1 : Obligations.ReadCr1ReturnsCr1 := by
  unfold Obligations.ReadCr1ReturnsCr1
  exact ⟨decode_readSelector 0x000, fun s => storedRead_frame (exec_readCr1 s),
    fun s => storedRead_of_inv (exec_readCr1 s), ⟨_, exec_readCr1 _, rfl⟩,
    fun s w => ⟨_, _, exec_access (by simp) s, exec_readCr1 _, rfl⟩⟩

/-- Settles O28: READ_CR2 is a read of a stored register, and WRITE_CR2 stores the word it is given. -/
theorem readCr2ReturnsCr2 : Obligations.ReadCr2ReturnsCr2 := by
  unfold Obligations.ReadCr2ReturnsCr2
  exact ⟨decode_readSelector 0x004, fun s => storedRead_frame (exec_readCr2 s),
    fun s => storedRead_of_inv (exec_readCr2 s), ⟨_, exec_readCr2 _, rfl⟩,
    fun s w => ⟨_, _, exec_access (by simp) s, exec_readCr2 _, rfl⟩⟩

/-! ### WRITE_SR -/

theorem writeSr_frame (s : State) (w : Word) :
    interruptCombinator (handler (.writeSr w) s)
      = { s with
          sr := (interruptCombinator (handler (.writeSr w) s)).sr
          irqOut := (interruptCombinator (handler (.writeSr w) s)).irqOut
          result := none
          diag := none } := rfl

/-- Every bit of sr after a WRITE_SR: the epilogue's RXNE and TXE, OVR and UDR cleared where written 1, every other bit as
it was. -/
theorem flag_writeSr (s : State) (w : Word) (b : Fin 32) :
    flag (interruptCombinator (handler (.writeSr w) s)) b
      = if b = s.cfg.srRxne then !s.rxFifo.isEmpty
        else if b = s.cfg.srTxe then s.txFifo.isEmpty
        else flag s b && !(getBit w b && (decide (b = s.cfg.srOvr) || decide (b = s.cfg.srUdr))) := by
  rw [flag_interruptCombinator, flag_handler_writeSr]; rfl

/-- OVR and UDR, which the epilogue does not write, are cleared where the data has a 1. -/
theorem flag_writeSr_sticky {s : State} (hl : configLegal s.cfg = true) (w : Word) {b : Fin 32}
    (hb : b = s.cfg.srOvr ∨ b = s.cfg.srUdr) :
    flag (interruptCombinator (handler (.writeSr w) s)) b = (flag s b && !getBit w b) := by
  obtain ⟨-, hrxneUdr, hrxneOvr, -, htxeUdr, htxeOvr, -⟩ := srPositions_ne hl
  obtain rfl | rfl := hb
  · rw [flag_writeSr, if_neg hrxneOvr.symm, if_neg htxeOvr.symm]; simp
  · rw [flag_writeSr, if_neg hrxneUdr.symm, if_neg htxeUdr.symm]; simp

theorem srBitsKept_writeSr (s : State) (w : Word) :
    SrBitsKept s (interruptCombinator (handler (.writeSr w) s))
      [s.cfg.srOvr, s.cfg.srUdr, s.cfg.srTxe, s.cfg.srRxne] := by
  intro b hb
  simp only [List.mem_cons, List.not_mem_nil, or_false, not_or] at hb
  obtain ⟨hovr, hudr, htxe, hrxne⟩ := hb
  rw [flag_writeSr, if_neg hrxne, if_neg htxe]
  simp [hovr, hudr]

theorem epilogueDone_writeSr {s : State} (hl : configLegal s.cfg = true) (w : Word) :
    EpilogueDone (interruptCombinator (handler (.writeSr w) s)) :=
  epilogueDone_interruptCombinator (by rwa [handler_cfg])

/-- At a quiescent point RXNE and TXE are what the epilogue stores, so WRITE_SR leaves of each bit what the mask leaves. -/
theorem flag_writeSr_of_inv {s : State} (h : s.Inv) (w : Word) (b : Fin 32) :
    flag (interruptCombinator (handler (.writeSr w) s)) b
      = (flag s b && !(getBit w b && (decide (b = s.cfg.srOvr) || decide (b = s.cfg.srUdr)))) := by
  obtain ⟨-, hrxneUdr, hrxneOvr, -, htxeUdr, htxeOvr, -⟩ := srPositions_ne h.legal
  rw [flag_writeSr]
  split_ifs with hrxne htxe
  · subst hrxne
    simp [h.flag_srRxne, hrxneUdr, hrxneOvr]
  · subst htxe
    simp [h.flag_srTxe, htxeUdr, htxeOvr]
  · rfl

theorem srBitsKept_writeSr_of_inv {s : State} (h : s.Inv) (w : Word) :
    SrBitsKept s (interruptCombinator (handler (.writeSr w) s)) [s.cfg.srOvr, s.cfg.srUdr] := by
  intro b hb
  simp only [List.mem_cons, List.not_mem_nil, or_false, not_or] at hb
  simp [flag_writeSr_of_inv h, hb]

/-- At a quiescent point WRITE_SR sets no bit. -/
theorem flag_of_flag_writeSr {s : State} (h : s.Inv) (w : Word) (b : Fin 32)
    (hb : flag (interruptCombinator (handler (.writeSr w) s)) b = true) : flag s b = true := by
  rw [flag_writeSr_of_inv h, Bool.and_eq_true] at hb
  exact hb.1

/-- WRITE_SR keeps the invariants. -/
theorem State.Inv.writeSr {s : State} (h : s.Inv) (w : Word) : (interruptCombinator (handler (.writeSr w) s)).Inv :=
  h.of_epilogueDone rfl rfl rfl rfl le_rfl (srBitsKept_writeSr s w) (epilogueDone_writeSr h.legal w)

/-- A write of 0 to SR clears nothing. -/
theorem handler_writeSr_zero (s : State) : handler (.writeSr 0x00000000) s = beginStep s := by
  have hsr : s.sr &&& ~~~clearMask s.cfg 0x00000000 = s.sr := word_ext fun b => by simp [getBit_clearMask]
  exact congrArg (fun v => { beginStep s with sr := v }) hsr

/-- The engine on one byte, with no room for its answer, sets OVR (spec/42_data_register_and_transfer_engine.md R117). -/
theorem flag_transferEngine_srOvr_of_full {s : State} {b : Byte} (hl : configLegal s.cfg = true) (htx : s.txFifo = [b])
    (hfull : s.rxFifo.length = s.cfg.fifoCapacity) : flag (transferEngine s) s.cfg.srOvr = true := by
  obtain ⟨-, -, -, -, -, htxeOvr, -, -, -, hovrBsy⟩ := srPositions_ne hl
  rw [transferEngine_single htx, flag_setFlag, if_neg htxeOvr.symm, flag_setFlag, if_neg hovrBsy, flag_pushRx]
  simp [hfull]

/-- WRITE_DR with tx_fifo empty and rx_fifo full sets OVR. -/
theorem flag_writeDr_srOvr_of_full {s : State} (hl : configLegal s.cfg = true) (htx : s.txFifo = [])
    (hfull : s.rxFifo.length = s.cfg.fifoCapacity) (w : Word) :
    flag (interruptCombinator (handler (.writeDr w) s)) s.cfg.srOvr = true := by
  obtain ⟨-, -, hrxneOvr, -, -, htxeOvr, -⟩ := srPositions_ne hl
  have hpush := pushTx_txFifo_of_empty (s := beginStep s) hl htx (txByte w)
  have hengine := flag_transferEngine_srOvr_of_full (by simpa using hl) hpush (by simpa using hfull)
  rw [pushTx_cfg, beginStep_cfg] at hengine
  rw [flag_interruptCombinator, handler_cfg, if_neg hrxneOvr.symm, if_neg htxeOvr.symm]
  exact hengine

/-- Settles O31: the frame and the bits of WRITE_SR; it leaves a full rx_fifo full, and a write of 0 leaves the epilogue of a
quiescent point, which has nothing to do. -/
theorem writeSrClearsWhereWrittenOne : Obligations.WriteSrClearsWhereWrittenOne := by
  unfold Obligations.WriteSrClearsWhereWrittenOne
  refine ⟨decode_write 0x008, fun s w hl => ⟨_, exec_access (by simp) s, writeSr_frame s w,
      flag_writeSr_sticky hl w (.inl rfl), flag_writeSr_sticky hl w (.inr rfl), srBitsKept_writeSr s w,
      epilogueDone_writeSr hl w⟩,
    fun s w h => ⟨_, exec_access (by simp) s, srBitsKept_writeSr_of_inv h w, flag_of_flag_writeSr h w,
      fun hfull v => ⟨_, exec_access (by simp) _, ?_⟩⟩, fun s h => ?_⟩
  · have hw := h.writeSr w
    exact flag_writeDr_srOvr_of_full hw.legal hw.txEmpty hfull v
  · rw [exec_access (by simp), handler_writeSr_zero]
    exact congrArg Host.Outcome.next (h.interruptCombinator_outputs none none)

/-! ### Recovery from an error (R136) -/

/-- No error flag is set. -/
def ErrorFree (s : State) : Prop := flag s s.cfg.srOvr = false ∧ flag s s.cfg.srUdr = false

/-- A step of a legal configuration that serves an event, as the handler and the epilogue of its operation. -/
theorem step_access {s : State} {e : Event} {rest : List Event} {i : Instr} (hl : configLegal s.cfg = true)
    (hev : s.events = e :: rest) (hd : decode e = i) (hi : i ≠ .reset) :
    step s = .next (interruptCombinator (handler i { s with events := rest })) := by
  rw [step_legal hl, hev, ← exec_access hi, ← hd]

/-- The invariants say nothing about the events still to serve. -/
theorem State.Inv.events {s : State} (h : s.Inv) (rest : List Event) : { s with events := rest }.Inv :=
  { h with }

/-- READ_DR keeps the invariants. -/
theorem State.Inv.readDr {s : State} (h : s.Inv) : (interruptCombinator (handler .readDr s)).Inv :=
  h.of_epilogueDone (by simp) (by simp [handler]) (by simp [handler]) (by simp [handler])
    (by simp [handler, popRx_rxFifo])
    (fun b hb => srBitsKept_readDr s b fun hmem => hb (List.mem_cons_of_mem _ hmem))
    (epilogueDone_interruptCombinator (by rw [handler_cfg]; exact h.legal))

/-- READ_DR with a byte to take raises no error (R111). -/
theorem ErrorFree.readDr {s : State} (hl : configLegal s.cfg = true) (he : ErrorFree s) (hne : s.rxFifo ≠ []) :
    ErrorFree (interruptCombinator (handler .readDr s)) := by
  obtain ⟨-, -, hrxneOvr, -, -, htxeOvr, -, hudrOvr, -⟩ := srPositions_ne hl
  obtain ⟨hovr, hudr⟩ := he
  rw [ErrorFree, interruptCombinator_cfg, handler_cfg]
  constructor
  · rw [srBitsKept_readDr s _ (by simp [hudrOvr.symm, htxeOvr.symm, hrxneOvr.symm]), hovr]
  · rw [flag_readDr_srUdr hl, hudr, Bool.false_or, List.isEmpty_eq_false_iff]
    exact hne

/-- CLR_ERR leaves no error flag set (spec/30_encoding.md R82). -/
theorem errorFree_writeSr_srW1cMask {s : State} (hl : configLegal s.cfg = true) :
    ErrorFree (interruptCombinator (handler (.writeSr (srW1cMask s.cfg)) s)) := by
  refine ⟨(flag_writeSr_sticky hl _ (.inl rfl)).trans ?_, (flag_writeSr_sticky hl _ (.inr rfl)).trans ?_⟩ <;>
    simp [srW1cMask]

/-- At a quiescent point with no error and rx_fifo empty, sr is TXE alone. -/
theorem sr_eq_of_idle {s : State} (h : s.Inv) (he : ErrorFree s) (hrx : s.rxFifo = []) :
    s.sr = bitMask s.cfg.srTxe := by
  obtain ⟨hovr, hudr⟩ := he
  refine word_ext fun b => ?_
  rw [getBit_bitMask]
  by_cases htxe : b = s.cfg.srTxe
  · rw [htxe, decide_eq_true rfl]
    exact h.txe.2 (by rw [h.txEmpty, List.length_nil])
  · rw [decide_eq_false htxe]
    by_cases hb : b ∈ [s.cfg.srRxne, s.cfg.srTxe, s.cfg.srUdr, s.cfg.srOvr, s.cfg.srBsy]
    · simp only [List.mem_cons, List.not_mem_nil, or_false] at hb
      obtain rfl | rfl | rfl | rfl | rfl := hb
      · exact h.flag_srRxne.trans (by simp [hrx])
      · exact absurd rfl htxe
      · exact hudr
      · exact hovr
      · exact h.bsy
    · exact h.unnamed b hb

/-- Where a recovery that began in `s₀` stands: a quiescent point with no error flag set, the bytes `rx` held and the events
`pending` to serve; all else of the block is as in `s₀` but for the line, which the invariants fix. -/
structure RecoveringFrom (s₀ : State) (rx : List Byte) (pending : List Event) (s : State) : Prop where
  inv : s.Inv
  errorFree : ErrorFree s
  frame : s = { s₀ with
    rxFifo := rx
    sr := s.sr
    irqOut := s.irqOut
    events := pending
    result := s.result
    diag := none }

/-- CLR_ERR begins the recovery. -/
theorem step_clrErr {s : State} {pending : List Event} (h : s.Inv)
    (hev : s.events = writeReg .sr (srW1cMask s.cfg) :: pending) :
    ∃ t, step s = .next t ∧ RecoveringFrom s s.rxFifo pending t :=
  ⟨_, step_access (i := .writeSr (srW1cMask s.cfg)) h.legal hev (decode_write _ _) (by simp),
    { inv := (h.events pending).writeSr _
      errorFree := errorFree_writeSr_srW1cMask (s := { s with events := pending }) h.legal
      frame := writeSr_frame { s with events := pending } _ }⟩

/-- A READ_DR with a byte to take goes on with the recovery. -/
theorem RecoveringFrom.step_readDr {s₀ s : State} {b : Byte} {q : List Byte} {pending : List Event}
    (h : RecoveringFrom s₀ (b :: q) (readReg .dr :: pending) s) :
    ∃ t, step s = .next t ∧ RecoveringFrom s₀ q pending t := by
  obtain ⟨hinv, hfree, hframe⟩ := h
  have hrx : s.rxFifo = b :: q := by rw [hframe]
  have hev : s.events = readReg .dr :: pending := by rw [hframe]
  refine ⟨_, step_access (i := .readDr) hinv.legal hev (decode_read _) (by simp), (hinv.events pending).readDr,
    ErrorFree.readDr (s := { s with events := pending }) hinv.legal hfree (by simp [hrx]), ?_⟩
  have hread := readDr_frame { s with events := pending }
  generalize interruptCombinator (handler .readDr { s with events := pending }) = t at hread ⊢
  rw [hframe] at hread
  rw [hread]
  rfl

/-- One READ_DR per byte held ends the recovery. -/
theorem RecoveringFrom.run_readDr {s₀ s : State} {rx : List Byte}
    (h : RecoveringFrom s₀ rx (List.replicate rx.length (readReg .dr)) s) :
    ∃ t, core.run rx.length s = .next t ∧ RecoveringFrom s₀ [] [] t := by
  induction rx generalizing s with
  | nil => exact ⟨s, run_zero s, h⟩
  | cons b q ih =>
    obtain ⟨u, hstep, hu⟩ := h.step_readDr
    obtain ⟨t, hrun, ht⟩ := ih hu
    exact ⟨t, (run_succ _ hstep).trans hrun, ht⟩

/-- Settles O54: CLR_ERR leaves no error flag, the READ_DRs then empty rx_fifo without raising one, and such a quiescent
point determines sr. -/
theorem errorRecoveryRestoresTheBlock : Obligations.ErrorRecoveryRestoresTheBlock := by
  unfold Obligations.ErrorRecoveryRestoresTheBlock
  intro s h hev
  obtain ⟨u, hstep, hu⟩ := step_clrErr h hev
  obtain ⟨t, hrun, hinv, hfree, hframe⟩ := hu.run_readDr
  have hcfg : t.cfg = s.cfg := by rw [hframe]
  have hrx : t.rxFifo = [] := by rw [hframe]
  have hsr : t.sr = 1#32 <<< s.cfg.srTxe.val := hcfg ▸ sr_eq_of_idle hinv hfree hrx
  refine ⟨t, ?_, hinv, ?_⟩
  · rw [Nat.add_comm]
    exact (run_succ _ hstep).trans hrun
  · rw [hsr] at hframe
    exact hframe

end Sys2Proof.Machine
end

section
/-! PROOFS. ChipSelectUpdate and READ_CSCTRL (spec/44_chip_select.md). -/

namespace Sys2Proof.Machine

/-- An existing line of a legal configuration is asserted iff its enable bit and its active bit are both set (R152). -/
theorem chipSelectUpdate_csOut_getElem? {s : State} (hl : configLegal s.cfg = true) {i : Nat} (hi : i < s.cfg.numLines) :
    (chipSelectUpdate s).csOut[i]? = some (s.csctrl.getLsbD i && s.csctrl.getLsbD (4 + i)) := by
  rw [chipSelectUpdate_csOut, lineLevels_getElem? s.csctrl hi, lineLevel_eq s.csctrl (line_lt_four hl hi)]

/-- Settles O24: the update stores one level for each of the NUM_LINES lines and writes no other field. -/
theorem chipSelectUpdateDrivesEveryLine : Obligations.ChipSelectUpdateDrivesEveryLine := by
  unfold Obligations.ChipSelectUpdateDrivesEveryLine
  intro s hl
  exact ⟨rfl, lineLevels_length s.cfg s.csctrl, fun _ hi => chipSelectUpdate_csOut_getElem? hl hi⟩

theorem exec_readCsctrl (s : State) :
    exec .readCsctrl s = .next (interruptCombinator (returnValue s.csctrl (beginStep s))) :=
  exec_access (by simp) s

/-- Settles O35: READ_CSCTRL is a read of a stored register, and WRITE_CSCTRL stores the word it is given. -/
theorem readCsctrlReturnsCsctrl : Obligations.ReadCsctrlReturnsCsctrl := by
  unfold Obligations.ReadCsctrlReturnsCsctrl
  exact ⟨decode_readSelector 0x010, fun s => storedRead_frame (exec_readCsctrl s),
    fun s => storedRead_of_inv (exec_readCsctrl s), ⟨_, exec_readCsctrl _, rfl⟩,
    fun s w => ⟨_, _, exec_access (by simp) s, exec_readCsctrl _, rfl⟩⟩

end Sys2Proof.Machine
end

section
/-! PROOFS. No operation faults, and the Interrupt Combinator (spec/60_exceptions.md R180, R186). -/

namespace Sys2Proof.Machine

/-! ### Completion -/

/-- A handler leaves a result exactly when its operation is a read. -/
theorem handler_result_isSome (i : Instr) (s : State) : (handler i s).result.isSome = i.operation.isRead := by
  cases i with
  | readDr => rw [handler, popRx_result]; rfl
  | writeDr _ => rw [handler, transferEngine_result, pushTx_result]; rfl
  | _ => rfl

/-- Every operation completes in every state, with the result its handler left: the epilogue leaves the result alone, and
RESET, which has no epilogue, is its handler. -/
theorem exec_completes (i : Instr) (s : State) : ∃ t, exec i s = .next t ∧ t.result = (handler i s).result := by
  by_cases hr : i = .reset
  · subst hr
    exact ⟨_, exec_reset s, rfl⟩
  · exact ⟨_, exec_access hr s, interruptCombinator_result _⟩

/-- A step of a legal configuration is idle or an operation, so it answers a next state. -/
theorem step_completes {s : State} (hl : configLegal s.cfg = true) : ∃ t, step s = .next t := by
  rw [step_legal hl]
  rcases s.events with _ | ⟨e, rest⟩
  · exact ⟨s, rfl⟩
  · obtain ⟨t, h, -⟩ := exec_completes (decode e) { s with events := rest }
    exact ⟨t, h⟩

/-- Settles O11: every operation completes with its handler's result, and a step is idle or an operation. -/
theorem everyOperationCompletes : Obligations.EveryOperationCompletes := by
  unfold Obligations.EveryOperationCompletes
  refine ⟨fun i s => ?_, fun _ => step_completes⟩
  obtain ⟨t, hexec, hresult⟩ := exec_completes i s
  have hread : t.result.isSome = i.operation.isRead := hresult ▸ handler_result_isSome i s
  exact ⟨t, hexec, fun hr => Option.isSome_iff_exists.1 (hread.trans hr),
    fun hr => Option.isNone_iff_eq_none.1 (Option.isSome_eq_false_iff.1 (hread.trans hr))⟩

/-! ### The Interrupt Combinator -/

/-- Settles O22: the combinator's frame, the bits of sr it keeps, and what it leaves in TXE, RXNE and the line. -/
theorem combinatorRefreshesStatusAndLine : Obligations.CombinatorRefreshesStatusAndLine := by
  unfold Obligations.CombinatorRefreshesStatusAndLine
  intro s hl
  exact ⟨interruptCombinator_frame s, srBitsKept_interruptCombinator s, epilogueDone_interruptCombinator hl⟩

end Sys2Proof.Machine
end

section
/-! PROOFS. The round trip of the decoder and the encoder (spec/30_encoding.md R70 to R73). -/

namespace Sys2Proof

/-- Settles O1: the encoder writes a register's own offset, and a well-formed bad-offset operation names
one that is none. -/
theorem decodeOfEncodeIsTheOperation : Obligations.DecodeOfEncodeIsTheOperation := by
  unfold Obligations.DecodeOfEncodeIsTheOperation
  intro i hwf
  cases i with
  | reset => exact decode_reset
  | readBad o => exact (decode_read o).trans (decodeRead_bad (by simpa [Instr.wellFormed] using hwf))
  | writeBad o v => exact (decode_write o v).trans (decodeWrite_bad v (by simpa [Instr.wellFormed] using hwf))
  | readCr1 | readCr2 | readSr | readDr | readCsctrl => exact decode_read _
  | writeCr1 v | writeCr2 v | writeSr v | writeDr v | writeCsctrl v => exact decode_write _ v

theorem decodeRead_wellFormed (o : Offset) : (decodeRead o).wellFormed = true := by
  obtain ⟨-, e⟩ | ⟨-, e⟩ | ⟨-, e⟩ | ⟨-, e⟩ | ⟨-, e⟩ | ⟨_, e⟩ := decodeRead_cases o <;>
    simp [Instr.wellFormed, *]

theorem decodeWrite_wellFormed (o : Offset) (v : Word) : (decodeWrite o v).wellFormed = true := by
  obtain ⟨-, e⟩ | ⟨-, e⟩ | ⟨-, e⟩ | ⟨-, e⟩ | ⟨-, e⟩ | ⟨_, e⟩ := decodeWrite_cases o <;>
    simp [Instr.wellFormed, *]

/-- Settles O2, by what an event can select. -/
theorem decodedOperationIsWellFormed : Obligations.DecodedOperationIsWellFormed := by
  unfold Obligations.DecodedOperationIsWellFormed
  intro e
  obtain ⟨-, hd⟩ | ⟨-, -, hd⟩ | ⟨-, -, hd⟩ := decode_cases e <;> rw [hd]
  · rfl
  · exact decodeWrite_wellFormed _ _
  · exact decodeRead_wellFormed _

theorem encode_decodeRead (o : Offset) : encode (decodeRead o) = .read o := by
  obtain ⟨rfl, e⟩ | ⟨rfl, e⟩ | ⟨rfl, e⟩ | ⟨rfl, e⟩ | ⟨rfl, e⟩ | ⟨-, e⟩ := decodeRead_cases o <;> rw [e] <;> rfl

theorem encode_decodeWrite (o : Offset) (v : Word) : encode (decodeWrite o v) = .write o v := by
  obtain ⟨rfl, e⟩ | ⟨rfl, e⟩ | ⟨rfl, e⟩ | ⟨rfl, e⟩ | ⟨rfl, e⟩ | ⟨-, e⟩ := decodeWrite_cases o <;> rw [e] <;> rfl

/-- Settles O3: an access is encoded with its own direction and offset, which with rst are all of its selector. -/
theorem encodeOfDecodeIsCanonical : Obligations.EncodeOfDecodeIsCanonical := by
  unfold Obligations.EncodeOfDecodeIsCanonical
  intro e
  obtain ⟨hrst, hd⟩ | ⟨hrst, hrw, hd⟩ | ⟨hrst, hrw, hd⟩ := decode_cases e
  · rw [hd, Event.canonical, if_pos hrst]; rfl
  · have hsel : e.sel = selectorOf false true e.offset := by rw [e.sel_eq_selectorOf, hrst, hrw]
    rw [hd, encode_decodeWrite, Event.canonical, hrst, hrw, if_neg Bool.false_ne_true, if_pos rfl, Event.write, ← hsel]
  · have hsel : e.sel = selectorOf false false e.offset := by rw [e.sel_eq_selectorOf, hrst, hrw]
    rw [hd, encode_decodeRead, Event.canonical, hrst, hrw, if_neg Bool.false_ne_true, if_neg Bool.false_ne_true,
      Event.read, ← hsel]

/-- Settles O5: each selector is decoded by the model. -/
theorem sampleSelectorsSelect : Obligations.SampleSelectorsSelect := by
  unfold Obligations.SampleSelectorsSelect
  decide

/-- Settles O6: the row is the first that the selector matches, and no row looks at the write data. -/
theorem selectionIgnoresTheWriteData : Obligations.SelectionIgnoresTheWriteData := by
  unfold Obligations.SelectionIgnoresTheWriteData
  intro sel v w
  exact Option.some.inj ((selectRow_operation ⟨sel, v⟩).symm.trans (selectRow_operation ⟨sel, w⟩))

/-- An event word is within the 46 bits of a selector and its write data. -/
theorem Event.toBits_lt (e : Event) : e.toBits < 2 ^ 46 := by
  have hsel := e.sel.isLt
  have hwdata := e.wdata.isLt
  rw [Event.toBits]
  omega

/-- An event word gives back its event. -/
theorem Event.ofBits_toBits (e : Event) : Event.ofBits e.toBits = e := by
  have hsel := e.sel.isLt
  have hlow : BitVec.ofNat 14 e.toBits = e.sel := BitVec.eq_of_toNat_eq (by
    rw [BitVec.toNat_ofNat, Event.toBits, Nat.add_mul_mod_self_left, Nat.mod_eq_of_lt hsel])
  have hhigh : e.toBits / 2 ^ 14 = e.wdata.toNat := by
    rw [Event.toBits]
    omega
  rw [Event.ofBits, hlow, hhigh, BitVec.ofNat_toNat, BitVec.setWidth_eq]

/-- Settles O7: the word is within its width and gives back the event. -/
theorem eventWordSelectsTheOperation : Obligations.EventWordSelectsTheOperation := by
  unfold Obligations.EventWordSelectsTheOperation
  intro e
  exact ⟨e.toBits_lt, by rw [decodeWord, if_pos e.toBits_lt, e.ofBits_toBits]⟩

end Sys2Proof
end

section
/-! PROOFS. The Transfer Engine on any tx_fifo (spec/42_data_register_and_transfer_engine.md R110, R112, R117). -/

namespace Sys2Proof.Machine

/-! ### The transfers of a queue of bytes -/

/-- The transfers a bus makes of the bytes of a queue, oldest first, with the lines at `cs`. -/
def transfersOf (b : BusState) (cs : List Bool) : List Byte → List BusTransfer
  | [] => []
  | t :: q => ⟨cs, t, (busTransfer b cs t).2⟩ :: transfersOf (busTransfer b cs t).1 cs q

/-- The bus after those transfers. -/
def busAfter (b : BusState) (cs : List Bool) (q : List Byte) : BusState := q.foldl (fun b t => (busTransfer b cs t).1) b

theorem busAfter_log (b : BusState) (cs : List Bool) (q : List Byte) :
    (busAfter b cs q).log = b.log ++ transfersOf b cs q := by
  induction q generalizing b with
  | nil => exact (List.append_nil _).symm
  | cons t q ih =>
    have hq : (busAfter (busTransfer b cs t).1 cs q).log = _ := ih _
    rw [busTransfer_log, List.append_assoc] at hq
    exact hq

theorem transfersOf_sent (b : BusState) (cs : List Bool) (q : List Byte) : (transfersOf b cs q).map (·.sent) = q := by
  induction q generalizing b with
  | nil => rfl
  | cons t q ih => rw [transfersOf, List.map_cons, ih]

theorem transfersOf_cs {b : BusState} {cs : List Bool} {q : List Byte} :
    ∀ x ∈ transfersOf b cs q, x.cs = cs := by
  induction q generalizing b with
  | nil => simp [transfersOf]
  | cons t q ih => simpa [transfersOf] using fun x hx => ih x hx

/-! ### The loop -/

/-- The queue after a push. -/
theorem fifoPush_fst (cap : Nat) (q : List Byte) (b : Byte) :
    (fifoPush cap q b).1 = if q.length = cap then q else q ++ [b] := by
  obtain ⟨h, e⟩ | ⟨h, e⟩ := fifoPush_cases cap q b <;> simp [e, h]

theorem engineIteration_bus {s : State} {t : Byte} {q : List Byte} (h : s.txFifo = t :: q) :
    (engineIteration s).bus = (busTransfer s.bus s.csOut t).1 := by
  rw [engineIteration_cons h, pushRx_bus]

theorem engineIteration_rxFifo {s : State} {t : Byte} {q : List Byte} (h : s.txFifo = t :: q) :
    (engineIteration s).rxFifo
      = if s.rxFifo.length = s.cfg.fifoCapacity then s.rxFifo else s.rxFifo ++ [(busTransfer s.bus s.csOut t).2] := by
  rw [engineIteration_cons h, pushRx_rxFifo]

/-- An iteration sets OVR if rx_fifo has no room for the answer (R117). -/
theorem flag_engineIteration_srOvr (s : State) :
    flag (engineIteration s) s.cfg.srOvr
      = (flag s s.cfg.srOvr || decide (s.rxFifo.length = s.cfg.fifoCapacity)) := by
  rw [engineIteration, flag_pushRx]
  exact if_pos rfl

theorem engineLoop_bus {s : State} {q : List Byte} (h : s.txFifo = q) :
    (engineLoop q s).bus = busAfter s.bus s.csOut q := by
  induction q generalizing s with
  | nil => rfl
  | cons t q ih =>
    rw [engineLoop, ih (by rw [engineIteration_txFifo, h]; rfl), engineIteration_bus h, engineIteration_csOut]; rfl

/-- Cutting a list to a length before another is appended does not change what is cut from the whole. -/
theorem take_take_append (n : Nat) (l r : List Byte) : (l.take n ++ r).take n = (l ++ r).take n := by
  rw [List.take_append, List.take_append, List.take_take, min_self, List.length_take]
  congr 2
  omega

/-- The answers queue in rx_fifo as far as there is room. -/
theorem engineLoop_rxFifo {s : State} {q : List Byte} (h : s.txFifo = q) (hrx : s.rxFifo.length ≤ s.cfg.fifoCapacity) :
    (engineLoop q s).rxFifo
      = (s.rxFifo ++ (transfersOf s.bus s.csOut q).map (·.answer)).take s.cfg.fifoCapacity := by
  induction q generalizing s with
  | nil => simp [engineLoop, transfersOf, List.take_of_length_le hrx]
  | cons t q ih =>
    have hone : (engineIteration s).rxFifo
        = (s.rxFifo ++ [(busTransfer s.bus s.csOut t).2]).take s.cfg.fifoCapacity := by
      rw [engineIteration_rxFifo h, ← fifoPush_take _ hrx, fifoPush_fst]
    rw [engineLoop, ih (by rw [engineIteration_txFifo, h]; rfl)
        (by rw [hone, engineIteration_cfg]; exact List.length_take_le _ _),
      hone, engineIteration_cfg, take_take_append, engineIteration_bus h, engineIteration_csOut, List.append_assoc]
    rfl

/-- OVR after the loop: it was set, or the answers did not all fit. -/
theorem flag_engineLoop_srOvr {s : State} {q : List Byte} (h : s.txFifo = q)
    (hrx : s.rxFifo.length ≤ s.cfg.fifoCapacity) :
    flag (engineLoop q s) s.cfg.srOvr
      = (flag s s.cfg.srOvr || decide (s.cfg.fifoCapacity < s.rxFifo.length + q.length)) := by
  induction q generalizing s with
  | nil => simp [engineLoop, hrx]
  | cons t q ih =>
    have hlen : (engineIteration s).rxFifo.length
        = if s.rxFifo.length = s.cfg.fifoCapacity then s.rxFifo.length else s.rxFifo.length + 1 := by
      rw [engineIteration_rxFifo h]; split_ifs <;> simp
    have hq := ih (s := engineIteration s) (by rw [engineIteration_txFifo, h]; rfl)
      (by rw [hlen, engineIteration_cfg]; split_ifs <;> omega)
    rw [engineIteration_cfg, flag_engineIteration_srOvr, hlen, Bool.or_assoc] at hq
    rw [engineLoop, hq, List.length_cons]
    by_cases hfull : s.rxFifo.length = s.cfg.fifoCapacity
    · simp [hfull]
    · simp [hfull, Nat.add_assoc, Nat.add_comm 1]

/-- The loop clears no OVR, in any state. -/
theorem flag_engineLoop_srOvr_of_set {s : State} (q : List Byte) (h : flag s s.cfg.srOvr = true) :
    flag (engineLoop q s) s.cfg.srOvr = true := by
  induction q generalizing s with
  | nil => exact h
  | cons t q ih =>
    have hq := ih (s := engineIteration s) (by rw [engineIteration_cfg, flag_engineIteration_srOvr, h]; rfl)
    rwa [engineIteration_cfg] at hq

/-! ### The engine -/

theorem transferEngine_bus (s : State) : (transferEngine s).bus = busAfter s.bus s.csOut s.txFifo :=
  engineLoop_bus (s := setFlag s.cfg.srBsy true s) rfl

theorem transferEngine_rxFifo {s : State} (hrx : s.rxFifo.length ≤ s.cfg.fifoCapacity) :
    (transferEngine s).rxFifo
      = (s.rxFifo ++ (transfersOf s.bus s.csOut s.txFifo).map (·.answer)).take s.cfg.fifoCapacity :=
  engineLoop_rxFifo (s := setFlag s.cfg.srBsy true s) rfl hrx

/-- Of the engine's steps only the loop writes OVR. -/
theorem flag_transferEngine_srOvr_eq_loop {s : State} (hl : configLegal s.cfg = true) :
    flag (transferEngine s) s.cfg.srOvr = flag (engineLoop s.txFifo (setFlag s.cfg.srBsy true s)) s.cfg.srOvr := by
  obtain ⟨-, -, -, -, -, htxeOvr, -, -, -, hovrBsy⟩ := srPositions_ne hl
  simp [transferEngine, flag_setFlag, htxeOvr.symm, hovrBsy]

theorem flag_transferEngine_srOvr {s : State} (hl : configLegal s.cfg = true)
    (hrx : s.rxFifo.length ≤ s.cfg.fifoCapacity) :
    flag (transferEngine s) s.cfg.srOvr
      = (flag s s.cfg.srOvr || decide (s.cfg.fifoCapacity < s.rxFifo.length + s.txFifo.length)) := by
  obtain ⟨-, -, -, -, -, -, -, -, -, hovrBsy⟩ := srPositions_ne hl
  have hloop := flag_engineLoop_srOvr (s := setFlag s.cfg.srBsy true s) rfl hrx
  rw [flag_setFlag, setFlag_cfg, if_neg hovrBsy] at hloop
  exact (flag_transferEngine_srOvr_eq_loop hl).trans hloop

/-- The engine clears no OVR, however many bytes rx_fifo holds. -/
theorem flag_transferEngine_srOvr_of_set {s : State} (hl : configLegal s.cfg = true)
    (h : flag s s.cfg.srOvr = true) : flag (transferEngine s) s.cfg.srOvr = true := by
  obtain ⟨-, -, -, -, -, -, -, -, -, hovrBsy⟩ := srPositions_ne hl
  rw [flag_transferEngine_srOvr_eq_loop hl]
  exact flag_engineLoop_srOvr_of_set (s := setFlag s.cfg.srBsy true s) _
    (by rw [flag_setFlag, setFlag_cfg, if_neg hovrBsy, h])

theorem transferEngine_frame (s : State) :
    transferEngine s
      = { s with
          txFifo := []
          rxFifo := (transferEngine s).rxFifo
          bus := (transferEngine s).bus
          sr := (transferEngine s).sr } := by
  apply state_ext <;> simp

/-- Settles O25: the transfers are those of tx_fifo, and what is queued and flagged follows the loop. -/
theorem engineDrainsInOrder : Obligations.EngineDrainsInOrder := by
  unfold Obligations.EngineDrainsInOrder
  intro s hl hrx
  obtain ⟨-, -, -, -, -, htxeOvr, htxeBsy, -, -, hovrBsy⟩ := srPositions_ne hl
  refine ⟨transfersOf s.bus s.csOut s.txFifo, transferEngine_frame s, ?_, transfersOf_sent .., transfersOf_cs,
    transferEngine_rxFifo hrx, flag_transferEngine_srOvr hl hrx, ?_, ?_, fun b hb => ?_⟩
  · rw [transferEngine_bus, busAfter_log]
  · rw [flag_transferEngine _ _ hovrBsy.symm, if_neg htxeBsy.symm, if_pos rfl]
  · rw [flag_transferEngine _ _ htxeOvr, if_pos rfl]
  · simp only [List.mem_cons, List.not_mem_nil, or_false, not_or] at hb
    obtain ⟨hovr, hbsy, htxe⟩ := hb
    rw [flag_transferEngine b s hovr, if_neg htxe, if_neg hbsy]

end Sys2Proof.Machine
end

section
/-! PROOFS. The invariants I1 to I8 of spec/10_state.md R40: at creation, over a step, and over a run. -/

namespace Sys2Proof.Machine

/-! ### Creation and RESET -/

/-- A legal configuration's state of creation is quiescent: nothing queued, every line deasserted, TXE alone in sr. -/
theorem State.create_inv {c : Config} (hl : configLegal c = true) (b : Bus) : (State.create c b).Inv where
  legal := hl
  rxne := by
    obtain ⟨hrxneTxe, -⟩ := srPositions_ne hl
    simp [flag, State.create, hrxneTxe]
  txe := by simp [flag, State.create]
  bsy := by
    obtain ⟨-, -, -, -, -, -, htxeBsy, -⟩ := srPositions_ne hl
    simp [flag, State.create, htxeBsy.symm]
  lines := by simp [State.create]
  cs i hi := by simpa [State.create, List.getElem?_replicate] using hi
  txEmpty := rfl
  rxBound := Nat.zero_le _
  irq := by simp [State.create]
  unnamed b hb := by
    simp only [List.mem_cons, List.not_mem_nil, or_false, not_or] at hb
    obtain ⟨-, htxe, -⟩ := hb
    exact (getBit_srReset c b).trans (decide_eq_false htxe)

/-- Settles O12: the reset state is a state of creation. -/
theorem resetStateMeetsTheInvariants : Obligations.ResetStateMeetsTheInvariants := by
  unfold Obligations.ResetStateMeetsTheInvariants
  exact State.create_inv (by decide) (.free 0)

theorem attach_of_legal {c : Config} {b : Bus} (hc : configLegal c = true) (hb : b.legal = true) :
    attach c b = .next (State.create c b) := by
  rw [attach, if_pos hc, if_pos hb]

/-- Settles O13: attach answers the state of creation. -/
theorem createdStateMeetsTheInvariants : Obligations.CreatedStateMeetsTheInvariants := by
  unfold Obligations.CreatedStateMeetsTheInvariants
  exact fun c b hc hb => ⟨_, attach_of_legal hc hb, rfl, State.create_inv hc b⟩

/-- RESET gives the state of creation, whichever the bus, but for the bus itself and the events to serve. -/
theorem exec_reset_eq_create (s : State) (b : Bus) :
    exec .reset s = .next { State.create s.cfg b with bus := s.bus, events := s.events } := rfl

/-- Settles O51: the state RESET gives names nothing of the state before but configuration, bus and events. -/
theorem resetForgetsTheBlock : Obligations.ResetForgetsTheBlock := by
  unfold Obligations.ResetForgetsTheBlock
  refine ⟨fun s t hcfg hbus hevents => ?_, exec_reset_eq_create⟩
  rw [exec_reset_eq_create s (.free 0), exec_reset_eq_create t (.free 0), hcfg, hbus, hevents]

/-! ### Operations -/

/-- Everything an operation can do: RESET is its handler alone, an access ends in the epilogue. -/
theorem exec_cases {s t : State} {i : Instr} (he : exec i s = .next t) :
    (i = .reset ∧ t = resetBlock (beginStep s)) ∨ (i ≠ .reset ∧ t = interruptCombinator (handler i s)) := by
  by_cases hi : i = .reset
  · subst hi
    exact .inl ⟨rfl, (Host.Outcome.next.inj he).symm⟩
  · rw [exec_access hi] at he
    exact .inr ⟨hi, (Host.Outcome.next.inj he).symm⟩

/-- What the invariants say but for what the epilogue of an access sets: RXNE, TXE and the interrupt line. -/
structure State.HandlerInv (s : State) : Prop where
  legal : configLegal s.cfg = true
  bsy : flag s s.cfg.srBsy = false
  lines : s.csOut.length = s.cfg.numLines
  cs : ∀ i, i < s.cfg.numLines → s.csOut[i]? = some (s.csctrl.getLsbD i && s.csctrl.getLsbD (4 + i))
  txEmpty : s.txFifo = []
  rxBound : s.rxFifo.length ≤ s.cfg.fifoCapacity
  unnamed : ∀ b, b ∉ [s.cfg.srRxne, s.cfg.srTxe, s.cfg.srUdr, s.cfg.srOvr, s.cfg.srBsy] → flag s b = false

theorem State.Inv.handlerInv {s : State} (h : s.Inv) : s.HandlerInv := { h with }

theorem State.Inv.txe_set {s : State} (h : s.Inv) : flag s s.cfg.srTxe = true :=
  h.txe.2 (by rw [h.txEmpty, List.length_nil])

theorem State.Inv.flag_srRxne_eq_decide {s : State} (h : s.Inv) :
    flag s s.cfg.srRxne = decide (0 < s.rxFifo.length) := by
  rw [Bool.eq_iff_iff, h.rxne, decide_eq_true_iff]

/-- The epilogue completes the invariants. -/
theorem State.HandlerInv.interruptCombinator {s : State} (h : s.HandlerInv) : (interruptCombinator s).Inv := by
  obtain ⟨htxe, hrxne, hirq⟩ := epilogueDone_interruptCombinator h.legal
  exact { h with
    rxne := by rw [hrxne]; cases (Machine.interruptCombinator s).rxFifo <;> simp
    txe := by rw [htxe]; cases (Machine.interruptCombinator s).txFifo <;> simp
    bsy := by
      obtain ⟨-, -, -, hrxneBsy, -, -, htxeBsy, -⟩ := srPositions_ne h.legal
      rw [interruptCombinator_cfg, flag_interruptCombinator, if_neg hrxneBsy.symm, if_neg htxeBsy.symm, h.bsy]
    irq := hirq
    unnamed := fun b hb => by
      have hs := h.unnamed b hb
      simp only [interruptCombinator_cfg, List.mem_cons, List.not_mem_nil, or_false, not_or] at hb
      obtain ⟨hrxneb, htxeb, -⟩ := hb
      rw [flag_interruptCombinator, if_neg hrxneb, if_neg htxeb, hs] }

theorem State.HandlerInv.readDr {s : State} (h : s.HandlerInv) : (handler .readDr s).HandlerInv where
  legal := by rw [handler_cfg, h.legal]
  bsy := by
    obtain ⟨-, -, -, -, -, -, -, -, hudrBsy, -⟩ := srPositions_ne h.legal
    rw [handler_cfg, flag_handler_readDr, if_neg hudrBsy.symm, h.bsy]
  lines := by simp [handler, h.lines]
  cs := by simpa [handler] using h.cs
  txEmpty := by simp [handler, h.txEmpty]
  rxBound := by
    have := h.rxBound
    simp only [handler, popRx_rxFifo, popRx_cfg, beginStep_rxFifo, beginStep_cfg, List.length_tail]
    omega
  unnamed b hb := by
    rw [handler_cfg] at hb
    have hs := h.unnamed b hb
    simp only [List.mem_cons, List.not_mem_nil, or_false, not_or] at hb
    obtain ⟨-, -, hudrb, -⟩ := hb
    rw [flag_handler_readDr, if_neg hudrb, hs]

theorem State.HandlerInv.writeSr {s : State} (h : s.HandlerInv) (w : Word) : (handler (.writeSr w) s).HandlerInv :=
  { h with
    bsy := by rw [handler_cfg, flag_handler_writeSr, h.bsy, Bool.false_and]
    unnamed := fun b hb => by rw [flag_handler_writeSr, h.unnamed b hb, Bool.false_and] }

/-- What WRITE_DR leaves in rx_fifo is within the capacity if what was there was. -/
theorem handler_writeDr_rxFifo_length_le {s : State} (hrx : s.rxFifo.length ≤ s.cfg.fifoCapacity) (w : Word) :
    (handler (.writeDr w) s).rxFifo.length ≤ s.cfg.fifoCapacity := by
  have hq := transferEngine_rxFifo (s := pushTx (txByte w) (beginStep s)) (by simpa using hrx)
  rw [pushTx_cfg, beginStep_cfg] at hq
  rw [handler, hq]
  exact List.length_take_le _ _

theorem State.HandlerInv.writeDr {s : State} (h : s.HandlerInv) (w : Word) : (handler (.writeDr w) s).HandlerInv where
  legal := by rw [handler_cfg, h.legal]
  bsy := by
    obtain ⟨-, -, -, -, -, -, htxeBsy, -, -, hovrBsy⟩ := srPositions_ne h.legal
    rw [handler_cfg, flag_handler_writeDr _ _ _ hovrBsy.symm, if_neg htxeBsy.symm, if_pos rfl]
  lines := by simp [handler, h.lines]
  cs := by simpa [handler] using h.cs
  txEmpty := by simp [handler]
  rxBound := by rw [handler_cfg]; exact handler_writeDr_rxFifo_length_le h.rxBound w
  unnamed b hb := by
    rw [handler_cfg] at hb
    have hs := h.unnamed b hb
    simp only [List.mem_cons, List.not_mem_nil, or_false, not_or] at hb
    obtain ⟨-, htxeb, -, hovrb, hbsyb⟩ := hb
    rw [flag_handler_writeDr _ _ _ hovrb, if_neg htxeb, if_neg hbsyb, hs]

/-- The level WRITE_CSCTRL drives an existing line to (spec/44_chip_select.md R152). -/
theorem handler_writeCsctrl_csOut_getElem? {s : State} (hl : configLegal s.cfg = true) (w : Word) {i : Nat}
    (hi : i < s.cfg.numLines) :
    (handler (.writeCsctrl w) s).csOut[i]? = some (w.getLsbD i && w.getLsbD (4 + i)) := by
  rw [handler_writeCsctrl_csOut, lineLevels_getElem? w hi, lineLevel_eq w (line_lt_four hl hi)]

/-- The handler of every access keeps what the epilogue does not set. -/
theorem State.HandlerInv.handler {s : State} (h : s.HandlerInv) {i : Instr} (hi : i ≠ .reset) :
    (handler i s).HandlerInv := by
  cases i with
  | reset => exact absurd rfl hi
  | readDr => exact h.readDr
  | writeDr w => exact h.writeDr w
  | writeSr w => exact h.writeSr w
  | writeCsctrl w =>
    exact { h with
      lines := lineLevels_length s.cfg w
      cs := fun _ => handler_writeCsctrl_csOut_getElem? h.legal w }
  | _ => exact { h with }

/-- Every operation keeps the invariants. -/
theorem State.Inv.exec {s t : State} {i : Instr} (h : s.Inv) (he : exec i s = .next t) : t.Inv := by
  obtain ⟨rfl, rfl⟩ | ⟨hi, rfl⟩ := exec_cases he
  · exact { State.create_inv h.legal (.free 0) with }
  · exact (h.handlerInv.handler hi).interruptCombinator

/-- Settles O14: an idle step keeps the state, any other is an operation. -/
theorem stepKeepsTheInvariants : Obligations.StepKeepsTheInvariants := by
  unfold Obligations.StepKeepsTheInvariants
  intro s t h hstep
  obtain ⟨-, ⟨-, rfl⟩ | ⟨e, rest, -, he⟩⟩ := step_cases hstep
  · exact h
  · exact (h.events rest).exec he

/-! ### A run of events -/

/-- No operation takes an event off the queue or puts one there. -/
theorem exec_events {s t : State} {i : Instr} (he : exec i s = .next t) : t.events = s.events := by
  obtain ⟨-, rfl⟩ | ⟨-, rfl⟩ := exec_cases he
  · rfl
  · exact handler_events i s

/-- At a quiescent point WRITE_DR queues its byte in an empty tx_fifo. -/
theorem State.Inv.pushTx_txFifo {s : State} (h : s.Inv) (b : Byte) : (pushTx b (beginStep s)).txFifo = [b] :=
  pushTx_txFifo_of_empty (s := beginStep s) h.legal h.txEmpty b

/-- WRITE_DR at a quiescent point sends the low byte of its data and no other (R115). -/
theorem handler_writeDr_bus {s : State} (h : s.Inv) (w : Word) :
    (handler (.writeDr w) s).bus = (busTransfer s.bus s.csOut (txByte w)).1 := by
  rw [handler, transferEngine_bus, h.pushTx_txFifo, pushTx_bus, pushTx_csOut]
  rfl

theorem eq_writeDr_of_operation {i : Instr} (h : i.operation = .writeDr) : ∃ w, i = .writeDr w := by
  cases i with
  | writeDr w => exact ⟨w, rfl⟩
  | _ => simp [Instr.operation] at h

theorem sentByte_of_writeDr {e : Event} {w : Word} (h : decode e = .writeDr w) : sentByte e = some (txByte w) := by
  rw [sentByte, h]; rfl

theorem sentByte_of_ne {e : Event} (h : (decode e).operation ≠ .writeDr) : sentByte e = none := by
  rw [sentByte]
  cases hd : decode e with
  | writeDr w => exact absurd (congrArg Instr.operation hd) h
  | _ => rfl

/-- What an event at a quiescent point hands to the bus. -/
theorem exec_decode_sent {s t : State} {e : Event} (h : s.Inv) (he : exec (decode e) s = .next t) :
    t.bus.log.map (·.sent) = s.bus.log.map (·.sent) ++ (sentByte e).toList := by
  by_cases hop : (decode e).operation = .writeDr
  · obtain ⟨w, hw⟩ := eq_writeDr_of_operation hop
    rw [hw, exec_access (by simp)] at he
    rw [← Host.Outcome.next.inj he, interruptCombinator_bus, handler_writeDr_bus h, busTransfer_log, List.map_append,
      sentByte_of_writeDr hw]
    rfl
  · obtain ⟨u, hu, hbus⟩ := exec_bus_of_ne hop s
    rw [← Host.Outcome.next.inj (hu.symm.trans he), hbus, sentByte_of_ne hop, Option.toList_none, List.append_nil]

/-- Settles O53, by induction on the events: each is served from a quiescent point. -/
theorem busSeesEveryWriteInOrder : Obligations.BusSeesEveryWriteInOrder := by
  unfold Obligations.BusSeesEveryWriteInOrder
  intro s events
  induction events generalizing s with
  | nil => exact fun h hev => ⟨s, run_zero s, hev, h, (List.append_nil _).symm⟩
  | cons e rest ih =>
    intro h hev
    have hrest := h.events rest
    obtain ⟨u, hu, -⟩ := exec_completes (decode e) { s with events := rest }
    have hstep : step s = .next u := by rw [step_legal h.legal, hev]; exact hu
    obtain ⟨t, hrun, htev, htinv, hsent⟩ := ih u (hrest.exec hu) (exec_events hu)
    refine ⟨t, (run_succ _ hstep).trans hrun, htev, htinv, ?_⟩
    rw [hsent, exec_decode_sent hrest hu, List.append_assoc]
    cases hb : sentByte e <;> simp [hb]

/-- Settles O17: an idle step keeps the state, and no operation writes the configuration. -/
theorem configurationNeverChanges : Obligations.ConfigurationNeverChanges := by
  unfold Obligations.ConfigurationNeverChanges
  intro s t hstep
  obtain ⟨-, ⟨-, rfl⟩ | ⟨e, rest, -, he⟩⟩ := step_cases hstep
  · rfl
  · obtain ⟨-, rfl⟩ | ⟨-, rfl⟩ := exec_cases he
    · rfl
    · exact handler_cfg _ _

/-! ### The status register at a quiescent point -/

theorem bitMask_eq (b : Fin 32) : bitMask b = 1#32 <<< b.val := rfl

theorem getBit_maskIf (p : Prop) [Decidable p] (c b : Fin 32) :
    getBit (if p then bitMask c else 0) b = (decide p && decide (b = c)) := by
  by_cases h : p <;> simp [h]

/-- Of the named bits the invariants fix RXNE, TXE and BSY, and every unnamed bit is 0. -/
theorem State.Inv.flag_eq {s : State} (h : s.Inv) (b : Fin 32) :
    flag s b = (decide (0 < s.rxFifo.length) && decide (b = s.cfg.srRxne) || decide (b = s.cfg.srTxe)
      || flag s s.cfg.srOvr && decide (b = s.cfg.srOvr) || flag s s.cfg.srUdr && decide (b = s.cfg.srUdr)) := by
  obtain ⟨hrxneTxe, hrxneUdr, hrxneOvr, hrxneBsy, htxeUdr, htxeOvr, htxeBsy, hudrOvr, hudrBsy, hovrBsy⟩ :=
    srPositions_ne h.legal
  by_cases hb : b ∈ [s.cfg.srRxne, s.cfg.srTxe, s.cfg.srUdr, s.cfg.srOvr, s.cfg.srBsy]
  · simp only [List.mem_cons, List.not_mem_nil, or_false] at hb
    obtain rfl | rfl | rfl | rfl | rfl := hb
    · simp [h.flag_srRxne_eq_decide, hrxneTxe, hrxneOvr, hrxneUdr]
    · simp [h.txe_set]
    · simp [hrxneUdr.symm, htxeUdr.symm, hudrOvr]
    · simp [hrxneOvr.symm, htxeOvr.symm, hudrOvr.symm]
    · simp [h.bsy, hrxneBsy.symm, htxeBsy.symm, hudrBsy.symm, hovrBsy.symm]
  · rw [h.unnamed b hb]
    simp only [List.mem_cons, List.not_mem_nil, or_false, not_or] at hb
    simp [hb]

/-- Settles O15, bit by bit. -/
theorem statusValueIsDetermined : Obligations.StatusValueIsDetermined := by
  unfold Obligations.StatusValueIsDetermined
  intro s h
  refine word_ext fun b => (h.flag_eq b).trans ?_
  simp only [← bitMask_eq, getBit_or, getBit_maskIf, getBit_bitMask, Bool.decide_eq_true]

/-- Two quiescent points with the same configuration, the same bytes received and the same error flags have the
same sr. -/
theorem State.Inv.sr_eq {s t : State} (hs : s.Inv) (ht : t.Inv) (cfg : t.cfg = s.cfg) (rx : t.rxFifo = s.rxFifo)
    (ovr : flag t s.cfg.srOvr = flag s s.cfg.srOvr) (udr : flag t s.cfg.srUdr = flag s s.cfg.srUdr) : t.sr = s.sr := by
  rw [statusValueIsDetermined t ht, statusValueIsDetermined s hs, cfg, rx, ovr, udr]

/-- Settles O16: under the reference layout the eight values are those of rx_fifo holding a byte, OVR and UDR. -/
theorem statusReadsOneOfEightValues : Obligations.StatusReadsOneOfEightValues := by
  unfold Obligations.StatusReadsOneOfEightValues
  intro s h hcfg
  refine ⟨_, s.sr, exec_access (by simp) s, rfl, ?_⟩
  rw [statusValueIsDetermined s h, hcfg]
  split_ifs <;> decide

/-- Settles O46: TXE is 1, so TXEIE alone asserts the line; with no enable set every term of the formula is 0. -/
theorem transmitEnableHoldsTheLine : Obligations.TransmitEnableHoldsTheLine := by
  unfold Obligations.TransmitEnableHoldsTheLine
  intro s h
  refine ⟨fun hen => ?_, fun htx hrx herr => ?_⟩
  · rw [h.irq, h.txe_set, hen, Bool.and_self, Bool.or_true, Bool.true_or]
  · simp [h.irq, htx, hrx, herr]

end Sys2Proof.Machine
end

section
/-! PROOFS. The operations on the registers, each with its frame (spec/40_register_decode.md R94, R95,
spec/43_control_and_status_registers.md R131 to R134, spec/44_chip_select.md R151), and RESET
(spec/70_reset_and_hazards.md R210). -/

namespace Sys2Proof.Machine

/-- A selector with rst = 0 and rw = 1 selects the write its offset names (R72). -/
theorem decode_writeSelector (o : Offset) (w : Word) : decode ⟨selectorOf false true o, w⟩ = decodeWrite o w :=
  decode_write o w

/-! ### The epilogue of an access -/

theorem epilogueDone_access {s : State} (hl : configLegal s.cfg = true) (i : Instr) :
    EpilogueDone (interruptCombinator (handler i s)) :=
  epilogueDone_interruptCombinator (by rwa [handler_cfg])

/-- An access whose handler leaves sr alone writes no bit of it but TXE and RXNE, in the epilogue. -/
theorem srBitsKept_access {i : Instr} {s : State} (hsr : (handler i s).sr = s.sr) :
    SrBitsKept s (interruptCombinator (handler i s)) [s.cfg.srTxe, s.cfg.srRxne] := by
  intro b hb
  rw [← handler_cfg i s] at hb
  rw [srBitsKept_interruptCombinator _ b hb, flag, hsr, flag]

/-- The epilogue has no bit of sr to change after an access that leaves a quiescent point's sr and FIFOs alone. -/
theorem State.Inv.interruptCombinator_sr {s u : State} (h : s.Inv) (cfg : u.cfg = s.cfg) (sr : u.sr = s.sr)
    (tx : u.txFifo = s.txFifo) (rx : u.rxFifo = s.rxFifo) : (interruptCombinator u).sr = s.sr := by
  refine word_ext fun b => (flag_interruptCombinator b u).trans ?_
  rw [cfg, tx, rx, flag, sr, ← h.flag_srRxne, ← h.flag_srTxe]
  split_ifs with hrxne htxe
  · rw [hrxne, flag]
  · rw [htxe, flag]
  · rfl

/-! ### CR1 -/

/-- Settles O27: only cr1 and the outputs of the step are written before the epilogue, which does not look at cr1. -/
theorem writeCr1StoresAndDoesNothingElse : Obligations.WriteCr1StoresAndDoesNothingElse := by
  unfold Obligations.WriteCr1StoresAndDoesNothingElse
  refine ⟨decode_writeSelector 0x000, fun s w hl => ⟨_, exec_access (by simp) s, rfl, srBitsKept_access rfl,
    epilogueDone_access hl _⟩, fun s w h => ?_⟩
  rw [exec_access (by simp)]
  exact congrArg Host.Outcome.next (interruptCombinator_eq_self (s := handler (.writeCr1 w) s) h.flag_srRxne
    h.flag_srTxe h.irq)

/-! ### CR2 -/

/-- The line after a write of CR2 at a quiescent point, where TXE is 1. -/
theorem writeCr2_irqOut {s : State} (h : s.Inv) (w : Word) :
    (interruptCombinator (handler (.writeCr2 w) s)).irqOut
      = (getBit w s.cfg.cr2Txeie || (decide (0 < s.rxFifo.length) && getBit w s.cfg.cr2Rxneie)
        || ((flag s s.cfg.srOvr || flag s s.cfg.srUdr) && getBit w s.cfg.cr2Errie)) := by
  have hsr := h.interruptCombinator_sr (u := handler (.writeCr2 w) s) rfl rfl rfl rfl
  obtain ⟨-, -, hirq⟩ := epilogueDone_access h.legal (.writeCr2 w)
  rw [flag, flag, flag, flag, hsr, ← flag, ← flag, ← flag, ← flag] at hirq
  rw [hirq, interruptCombinator_cfg, handler_cfg, h.flag_srRxne_eq_decide, h.txe_set, Bool.true_and, Bool.or_comm (getBit w _)]
  rfl

/-- Settles O29: only cr2 and the outputs of the step are written before the epilogue, which uses the new cr2. -/
theorem writeCr2ActsAtOnce : Obligations.WriteCr2ActsAtOnce := by
  unfold Obligations.WriteCr2ActsAtOnce
  refine ⟨decode_writeSelector 0x004, fun s w hl => ⟨_, exec_access (by simp) s, rfl, srBitsKept_access rfl,
    epilogueDone_access hl _⟩, fun s w h => ⟨_, exec_access (by simp) s, ?_, writeCr2_irqOut h w⟩⟩
  have hsr := h.interruptCombinator_sr (u := handler (.writeCr2 w) s) rfl rfl rfl rfl
  rw [interruptCombinator_frame, hsr]
  rfl

/-! ### SR -/

theorem exec_readSr (s : State) : exec .readSr s = .next (interruptCombinator (returnValue s.sr (beginStep s))) :=
  exec_access (by simp) s

/-- Settles O30: READ_SR is a read of a stored register, and at a quiescent point BSY is 0 and TXE 1. -/
theorem readSrReturnsSrAndClearsNothing : Obligations.ReadSrReturnsSrAndClearsNothing := by
  unfold Obligations.ReadSrReturnsSrAndClearsNothing
  exact ⟨decode_readSelector 0x008, fun s => storedRead_frame (exec_readSr s),
    fun s h => ⟨storedRead_of_inv (exec_readSr s) h, h.bsy, h.txe_set⟩⟩

/-! ### CSCTRL -/

/-- A pin is low exactly when its line is asserted (R153). -/
theorem pinLevels_getElem? {s : State} {i : Nat} {x : Bool} (h : s.csOut[i]? = some x) :
    (pinLevels s)[i]? = some (!x) := by
  rw [pinLevels, List.getElem?_map, h]; rfl

/-- Settles O36: the handler stores csctrl and redrives every line from it; the epilogue touches neither. -/
theorem writeCsctrlDrivesTheLines : Obligations.WriteCsctrlDrivesTheLines := by
  unfold Obligations.WriteCsctrlDrivesTheLines
  refine ⟨decode_writeSelector 0x010, fun s w hl => ⟨_, exec_access (by simp) s, rfl, lineLevels_length s.cfg w,
    fun i => handler_writeCsctrl_csOut_getElem? hl w, fun i hi => ?_, srBitsKept_access rfl, epilogueDone_access hl _⟩,
    fun s w h => ⟨_, exec_access (by simp) s, ?_⟩⟩
  · exact pinLevels_getElem? (handler_writeCsctrl_csOut_getElem? hl w hi)
  · rw [interruptCombinator_eq_self (s := handler (.writeCsctrl w) s) h.flag_srRxne h.flag_srTxe h.irq]
    rfl

/-- The two bits SELECT i writes put line i alone at EN and ACT (spec/30_encoding.md R82). -/
theorem select_line (i j : Fin 4) :
    ((1#32 <<< i.val ||| 1#32 <<< (4 + i.val)).getLsbD j.val
        && (1#32 <<< i.val ||| 1#32 <<< (4 + i.val)).getLsbD (4 + j.val))
      = decide (j.val = i.val) := by
  revert i j; decide

/-- Settles O58: SELECT i is a write of CSCTRL, which drives the lines from its data. -/
theorem selectAssertsOneLine : Obligations.SelectAssertsOneLine := by
  unfold Obligations.SelectAssertsOneLine
  intro s i hl _ hev
  refine ⟨_, step_access (i := .writeCsctrl _) hl hev (decode_write _ _) (by simp), handler_events _ _, fun j hj => ?_⟩
  refine (handler_writeCsctrl_csOut_getElem? (s := { s with events := [] }) hl _ hj).trans (congrArg some ?_)
  exact select_line i ⟨j, line_lt_four hl hj⟩

/-! ### Bad offsets -/

/-- Settles O37: the handler writes the outputs of the step alone. -/
theorem readBadReturnsZeroAndReports : Obligations.ReadBadReturnsZeroAndReports := by
  unfold Obligations.ReadBadReturnsZeroAndReports
  refine ⟨fun o w ho => (decode_readSelector o w).trans (decodeRead_bad ho), fun s o hl => ⟨_,
    exec_access (by simp) s, interruptCombinator_frame _, srBitsKept_access rfl, epilogueDone_access hl _⟩, fun s o h => ?_⟩
  exact congrArg Host.Outcome.next (h.interruptCombinator_outputs (some 0x00000000) (some ⟨.read, o⟩))

/-- Settles O38: the handler writes the outputs of the step alone. -/
theorem writeBadDiscardsAndReports : Obligations.WriteBadDiscardsAndReports := by
  unfold Obligations.WriteBadDiscardsAndReports
  refine ⟨fun o w ho => (decode_writeSelector o w).trans (decodeWrite_bad w ho), fun s o w hl => ⟨_,
    exec_access (by simp) s, interruptCombinator_frame _, srBitsKept_access rfl, epilogueDone_access hl _⟩, fun s o w h => ?_⟩
  exact congrArg Host.Outcome.next (h.interruptCombinator_outputs none (some ⟨.write, o⟩))

/-! ### RESET -/

/-- Settles O39: rst alone selects RESET, whose values the model states field by field. -/
theorem resetGivesTheResetValues : Obligations.ResetGivesTheResetValues := by
  unfold Obligations.ResetGivesTheResetValues
  exact ⟨fun sel w h => if_pos h, fun s => exec_reset s⟩

/-- Settles O40: the state of creation in the reference configuration, evaluated. -/
theorem resetStateHasTheResetValues : Obligations.ResetStateHasTheResetValues := by
  unfold Obligations.ResetStateHasTheResetValues
  decide

end Sys2Proof.Machine
end

section
/-! PROOFS. WRITE_DR, and its answer read back (spec/42_data_register_and_transfer_engine.md R110, R115, R117, R118). -/

namespace Sys2Proof.Machine

/-! ### Every state -/

/-- WRITE_DR leaves tx_fifo empty; besides rx_fifo, the bus and sr it writes irq_out and the cleared outputs alone. -/
theorem writeDr_frame (s : State) (w : Word) :
    interruptCombinator (handler (.writeDr w) s)
      = { s with
          txFifo := []
          rxFifo := (interruptCombinator (handler (.writeDr w) s)).rxFifo
          bus := (interruptCombinator (handler (.writeDr w) s)).bus
          sr := (interruptCombinator (handler (.writeDr w) s)).sr
          irqOut := (interruptCombinator (handler (.writeDr w) s)).irqOut
          result := none
          diag := none } := by
  have hrest : handler (.writeDr w) s
      = { s with
          txFifo := []
          rxFifo := (handler (.writeDr w) s).rxFifo
          bus := (handler (.writeDr w) s).bus
          sr := (handler (.writeDr w) s).sr
          result := none
          diag := none } := by
    apply state_ext <;> simp [handler]
  rw [interruptCombinator_frame, hrest]

theorem handler_writeDr_txFifo (s : State) (w : Word) : (handler (.writeDr w) s).txFifo = [] := by
  rw [handler, transferEngine_txFifo]

/-- Every bit of sr but OVR after a WRITE_DR: the epilogue's RXNE, TXE 1, BSY 0, every other as it was. -/
theorem flag_writeDr (s : State) (w : Word) {b : Fin 32} (hovr : b ≠ s.cfg.srOvr) :
    flag (interruptCombinator (handler (.writeDr w) s)) b
      = if b = s.cfg.srRxne then !(handler (.writeDr w) s).rxFifo.isEmpty
        else if b = s.cfg.srTxe then true
        else if b = s.cfg.srBsy then false
        else flag s b := by
  rw [flag_interruptCombinator, handler_cfg, handler_writeDr_txFifo, flag_handler_writeDr s w b hovr]
  split_ifs <;> rfl

/-- OVR, which the epilogue does not write. -/
theorem flag_writeDr_srOvr {s : State} (hl : configLegal s.cfg = true) (w : Word) :
    flag (interruptCombinator (handler (.writeDr w) s)) s.cfg.srOvr = flag (handler (.writeDr w) s) s.cfg.srOvr := by
  obtain ⟨-, -, hrxneOvr, -, -, htxeOvr, -⟩ := srPositions_ne hl
  rw [flag_interruptCombinator, handler_cfg, if_neg hrxneOvr.symm, if_neg htxeOvr.symm]

theorem srBitsKept_writeDr (s : State) (w : Word) :
    SrBitsKept s (interruptCombinator (handler (.writeDr w) s))
      [s.cfg.srOvr, s.cfg.srBsy, s.cfg.srTxe, s.cfg.srRxne] := by
  intro b hb
  simp only [List.mem_cons, List.not_mem_nil, or_false, not_or] at hb
  obtain ⟨hovr, hbsy, htxe, hrxne⟩ := hb
  rw [flag_writeDr s w hovr, if_neg hrxne, if_neg htxe, if_neg hbsy]

/-! ### A full tx_fifo -/

/-- With tx_fifo full the new byte is dropped, OVR is set, and the engine runs on the queued bytes. -/
theorem handler_writeDr_of_txFull {s : State} (h : s.txFifo.length = s.cfg.fifoCapacity) (w : Word) :
    handler (.writeDr w) s = transferEngine (setFlag s.cfg.srOvr true (beginStep s)) := by
  obtain ⟨-, e⟩ | ⟨hne, -⟩ := pushTx_cases (txByte w) (beginStep s)
  · rw [handler, e, beginStep_cfg]
  · exact absurd h hne

/-- Settles O34: the engine on the queued bytes, with OVR set before it. -/
theorem writeDrOnFullTxDropsOnlyTheNewByte : Obligations.WriteDrOnFullTxDropsOnlyTheNewByte := by
  unfold Obligations.WriteDrOnFullTxDropsOnlyTheNewByte
  intro s w hl hfull hrx
  refine ⟨_, transfersOf s.bus s.csOut s.txFifo, exec_access (by simp) s, ?_, ?_, ?_, transfersOf_sent .., ?_⟩
  · rw [interruptCombinator_txFifo, handler_writeDr_txFifo]
  · rw [flag_writeDr_srOvr hl, handler_writeDr_of_txFull hfull]
    exact flag_transferEngine_srOvr_of_set (s := setFlag s.cfg.srOvr true (beginStep s)) hl
      (by rw [flag_setFlag]; exact if_pos rfl)
  · rw [interruptCombinator_bus, handler_writeDr_of_txFull hfull, transferEngine_bus, busAfter_log]
    rfl
  · rw [interruptCombinator_rxFifo, handler_writeDr_of_txFull hfull]
    exact transferEngine_rxFifo (s := setFlag s.cfg.srOvr true (beginStep s)) hrx

/-! ### A quiescent point -/

/-- The answer to the byte sent is queued, or dropped when rx_fifo is full. -/
theorem handler_writeDr_rxFifo {s : State} (h : s.Inv) (w : Word) :
    (handler (.writeDr w) s).rxFifo
      = if s.rxFifo.length = s.cfg.fifoCapacity then s.rxFifo
        else s.rxFifo ++ [(busTransfer s.bus s.csOut (txByte w)).2] := by
  have hrx := transferEngine_rxFifo (s := pushTx (txByte w) (beginStep s)) (by simpa using h.rxBound)
  rw [h.pushTx_txFifo, pushTx_rxFifo, pushTx_cfg, pushTx_bus, pushTx_csOut] at hrx
  rw [← fifoPush_fst, fifoPush_take _ h.rxBound]
  exact hrx

/-- OVR is set if the answer is dropped. -/
theorem flag_handler_writeDr_srOvr {s : State} (h : s.Inv) (w : Word) :
    flag (handler (.writeDr w) s) s.cfg.srOvr
      = (flag s s.cfg.srOvr || decide (s.rxFifo.length = s.cfg.fifoCapacity)) := by
  have hbound := h.rxBound
  obtain ⟨-, -, hcap, -⟩ := (configLegal_iff s.cfg).1 h.legal
  have hpush : flag (pushTx (txByte w) (beginStep s)) s.cfg.srOvr = flag s s.cfg.srOvr := by
    have hroom : 0 ≠ s.cfg.fifoCapacity := by omega
    simp [flag_pushTx, h.txEmpty, hroom]
  have hengine := flag_transferEngine_srOvr (s := pushTx (txByte w) (beginStep s)) (by simpa using h.legal)
    (by simpa using hbound)
  rw [h.pushTx_txFifo, pushTx_cfg, pushTx_rxFifo, beginStep_cfg, beginStep_rxFifo, hpush, List.length_singleton] at hengine
  have hfull : s.cfg.fifoCapacity < s.rxFifo.length + 1 ↔ s.rxFifo.length = s.cfg.fifoCapacity := by omega
  rw [handler, hengine, decide_eq_decide.2 hfull]

/-- After a WRITE_DR at a quiescent point rx_fifo holds a byte, since its capacity is at least 1. -/
theorem handler_writeDr_rxFifo_ne_nil {s : State} (h : s.Inv) (w : Word) :
    (handler (.writeDr w) s).rxFifo ≠ [] := by
  obtain ⟨-, -, hcap, -⟩ := (configLegal_iff s.cfg).1 h.legal
  rw [handler_writeDr_rxFifo h]
  split_ifs with hfull
  · exact List.ne_nil_of_length_pos (by omega)
  · simp

/-- At a quiescent point TXE is 1 and BSY 0 already. -/
theorem srBitsKept_writeDr_of_inv {s : State} (h : s.Inv) (w : Word) :
    SrBitsKept s (interruptCombinator (handler (.writeDr w) s)) [s.cfg.srOvr, s.cfg.srRxne] := by
  intro b hb
  simp only [List.mem_cons, List.not_mem_nil, or_false, not_or] at hb
  obtain ⟨hovr, hrxne⟩ := hb
  rw [flag_writeDr s w hovr, if_neg hrxne]
  split_ifs with htxe hbsy
  · rw [htxe, h.txe_set]
  · rw [hbsy, h.bsy]
  · rfl

/-- Settles O33: the engine on the one byte at a quiescent point, and the frame of every state. -/
theorem writeDrTransfersOneByte : Obligations.WriteDrTransfersOneByte := by
  unfold Obligations.WriteDrTransfersOneByte
  refine ⟨decode_write 0x00C, fun s w h => ?_, fun s w hl => ?_⟩
  · obtain ⟨-, -, hrxneOvr, -⟩ := srPositions_ne h.legal
    refine ⟨_, exec_access (by simp) s, ?_, busTransfer_log .., ?_, ?_, srBitsKept_writeDr_of_inv h w,
      epilogueDone_access h.legal _⟩
    · have hframe := writeDr_frame s w
      rw [interruptCombinator_rxFifo, interruptCombinator_bus, handler_writeDr_rxFifo h,
        handler_writeDr_bus h] at hframe
      refine hframe.trans ?_
      rw [← txByte_eq, h.txEmpty]
    · rw [flag_writeDr_srOvr h.legal, flag_handler_writeDr_srOvr h]
    · rw [flag_writeDr s w hrxneOvr, if_pos rfl, List.isEmpty_eq_false_iff.2 (handler_writeDr_rxFifo_ne_nil h w)]
      rfl
  · obtain ⟨hrxneTxe, -, -, hrxneBsy, -, htxeOvr, htxeBsy, -, -, hovrBsy⟩ := srPositions_ne hl
    refine ⟨_, exec_access (by simp) s, writeDr_frame s w, ?_, ?_, srBitsKept_writeDr s w, epilogueDone_access hl _⟩
    · rw [flag_writeDr s w hovrBsy.symm, if_neg hrxneBsy.symm, if_neg htxeBsy.symm, if_pos rfl]
    · rw [flag_writeDr s w htxeOvr, if_neg hrxneTxe.symm, if_pos rfl]

/-! ### The round trip (R118) -/

/-- Settles O52: READ_DR takes the one answer queued, and then rx_fifo and the error flags are as before, which fixes
sr. -/
theorem roundTripReturnsTheAnswer : Obligations.RoundTripReturnsTheAnswer := by
  unfold Obligations.RoundTripReturnsTheAnswer
  intro s w h hrx
  obtain ⟨-, -, hcap, -⟩ := (configLegal_iff s.cfg).1 h.legal
  obtain ⟨-, hrxneUdr, hrxneOvr, -, -, htxeOvr, -, hudrOvr, -⟩ := srPositions_ne h.legal
  have hroom : ¬ s.rxFifo.length = s.cfg.fifoCapacity := by rw [hrx, List.length_nil]; omega
  have hexec := exec_access (i := .writeDr w) (by simp) s
  have htinv := h.exec hexec
  have htcfg : (interruptCombinator (handler (.writeDr w) s)).cfg = s.cfg := by
    rw [interruptCombinator_cfg, handler_cfg]
  have htrx : (interruptCombinator (handler (.writeDr w) s)).rxFifo = [(busTransfer s.bus s.csOut (txByte w)).2] :=
    (interruptCombinator_rxFifo _).trans ((handler_writeDr_rxFifo h w).trans (by rw [if_neg hroom, hrx]; rfl))
  have htovr : flag (interruptCombinator (handler (.writeDr w) s)) s.cfg.srOvr = flag s s.cfg.srOvr := by
    rw [flag_writeDr_srOvr h.legal, flag_handler_writeDr_srOvr h, decide_eq_false hroom, Bool.or_false]
  have htudr : flag (interruptCombinator (handler (.writeDr w) s)) s.cfg.srUdr = flag s s.cfg.srUdr :=
    srBitsKept_writeDr_of_inv h w _ (by simp [hudrOvr, hrxneUdr.symm])
  generalize interruptCombinator (handler (.writeDr w) s) = t at *
  have hread := readDr_frame t
  rw [htrx] at hread
  have hurx : (interruptCombinator (handler .readDr t)).rxFifo = [] := by rw [hread]; rfl
  refine ⟨t, _, hexec, exec_access (by simp) t, ?_, hurx, ?_⟩
  · rw [hread]; rfl
  · refine h.sr_eq htinv.readDr ((handler_cfg _ _).trans htcfg) (hurx.trans hrx.symm) ?_ ?_
    · rw [flag_readDr, htcfg, if_neg hrxneOvr.symm, if_neg htxeOvr.symm, if_neg hudrOvr.symm, htovr]
    · rw [← htcfg, flag_readDr_srUdr htinv.legal, htrx, List.isEmpty_cons, Bool.or_false, htcfg, htudr]

end Sys2Proof.Machine
end

section
/-! PROOFS. Rules every operation obeys: the step, bounds, diagnostics, sticky flags and idempotence
(spec/10_state.md R26, spec/20_memory.md R56, spec/40_register_decode.md R92, R97, spec/41_fifo_pair.md R102). -/

namespace Sys2Proof.Machine

/-! ### The step -/

/-- Settles O8, by the equation of a step on a legal configuration. -/
theorem stepServesTheOldestEvent : Obligations.StepServesTheOldestEvent := by
  unfold Obligations.StepServesTheOldestEvent
  intro s e rest hl hev
  rw [step_legal hl, hev]

/-- Settles O9, by the equation of a step on a legal configuration. -/
theorem stepWithoutEventChangesNothing : Obligations.StepWithoutEventChangesNothing := by
  unfold Obligations.StepWithoutEventChangesNothing
  intro s hl hev
  rw [step_legal hl, hev]

/-- Settles O10: step and attach check the configuration first, and the check holds NUM_LINES and FIFO_CAPACITY to their
ranges. -/
theorem illegalConfigurationIsRefused : Obligations.IllegalConfigurationIsRefused := by
  unfold Obligations.IllegalConfigurationIsRefused
  refine ⟨fun s hl => ?_, fun c b hl => ?_, fun c hlines => ?_, fun c hcapacity => ?_⟩
  · rw [step, hl, if_neg Bool.false_ne_true]
  · rw [attach, hl, if_neg Bool.false_ne_true]
  · rw [Bool.eq_false_iff]
    intro hl
    obtain ⟨hmin, hmax, -⟩ := (configLegal_iff c).1 hl
    omega
  · rw [Bool.eq_false_iff]
    intro hl
    obtain ⟨-, -, hmin, -⟩ := (configLegal_iff c).1 hl
    omega

/-! ### The end of an operation -/

/-- What follows an operation's handler: the combinator after an access, nothing after RESET (R92). -/
def epilogue (i : Instr) (s : State) : State := if i = .reset then s else interruptCombinator s

/-- Every operation is its handler and then its epilogue. -/
theorem exec_eq_epilogue (i : Instr) (s : State) : exec i s = .next (epilogue i (handler i s)) := by
  by_cases hi : i = .reset
  · rw [epilogue, if_pos hi, hi]; rfl
  · rw [epilogue, if_neg hi, exec_access hi]

/-- An epilogue writes sr and irq_out alone. -/
theorem epilogue_frame (i : Instr) (s : State) :
    epilogue i s = { s with sr := (epilogue i s).sr, irqOut := (epilogue i s).irqOut } := by
  unfold epilogue
  split_ifs <;> rfl

theorem handler_irqOut {i : Instr} (hi : i ≠ .reset) (s : State) : (handler i s).irqOut = s.irqOut := by
  cases i with
  | reset => exact absurd rfl hi
  | _ => simp [handler]

/-- Settles O23: an access is its handler, which leaves the line and the configuration alone, and the combinator. -/
theorem everyAccessEndsInTheCombinator : Obligations.EveryAccessEndsInTheCombinator := by
  unfold Obligations.EveryAccessEndsInTheCombinator
  exact ⟨fun i s hi => ⟨handler i s, _, exec_access hi s, rfl, handler_irqOut hi s, handler_cfg i s,
    fun hl => epilogueDone_access hl i⟩, fun s => ⟨_, exec_reset s, rfl, rfl⟩⟩

/-! ### Bounds and diagnostics -/

/-- No handler takes a FIFO above its capacity: WRITE_DR drains tx_fifo and queues what fits, READ_DR takes a byte
off. -/
theorem handler_fifo_length_le {s : State} (htx : s.txFifo.length ≤ s.cfg.fifoCapacity)
    (hrx : s.rxFifo.length ≤ s.cfg.fifoCapacity) (i : Instr) :
    (handler i s).txFifo.length ≤ s.cfg.fifoCapacity ∧ (handler i s).rxFifo.length ≤ s.cfg.fifoCapacity := by
  cases i with
  | reset => exact ⟨Nat.zero_le _, Nat.zero_le _⟩
  | readDr =>
    refine ⟨by simpa [handler] using htx, ?_⟩
    rw [handler, popRx_rxFifo, List.length_tail]
    exact (Nat.sub_le _ _).trans hrx
  | writeDr w => exact ⟨by simp [handler], handler_writeDr_rxFifo_length_le hrx w⟩
  | _ => exact ⟨htx, hrx⟩

/-- Settles O18: the epilogue leaves the FIFOs alone. -/
theorem fifoBoundsAreKept : Obligations.FifoBoundsAreKept := by
  unfold Obligations.FifoBoundsAreKept
  intro i s htx hrx
  refine ⟨_, exec_eq_epilogue i s, ?_⟩
  rw [epilogue_frame]
  exact handler_fifo_length_le htx hrx i

/-- Settles O44: the epilogue leaves the handler's diagnostic alone, and of the handlers only the two of a bad offset
report one. -/
theorem diagnosticExactlyForBadOffsets : Obligations.DiagnosticExactlyForBadOffsets := by
  unfold Obligations.DiagnosticExactlyForBadOffsets
  intro i s
  refine ⟨_, exec_eq_epilogue i s, ?_⟩
  rw [epilogue_frame]
  cases i <;> simp [handler, Instr.operation]

/-! ### The error flags -/

/-- The epilogue of an access writes neither OVR nor UDR. -/
theorem flag_access_sticky {s : State} (hl : configLegal s.cfg = true) (i : Instr) :
    flag (interruptCombinator (handler i s)) s.cfg.srOvr = flag (handler i s) s.cfg.srOvr ∧
      flag (interruptCombinator (handler i s)) s.cfg.srUdr = flag (handler i s) s.cfg.srUdr := by
  obtain ⟨-, hrxneUdr, hrxneOvr, -, htxeUdr, htxeOvr, -⟩ := srPositions_ne hl
  constructor
  · rw [flag_interruptCombinator, handler_cfg, if_neg hrxneOvr.symm, if_neg htxeOvr.symm]
  · rw [flag_interruptCombinator, handler_cfg, if_neg hrxneUdr.symm, if_neg htxeUdr.symm]

/-- Of the accesses only WRITE_SR, where written 1, clears OVR, and only WRITE_DR sets it. -/
theorem handler_srOvr_sticky {s : State} (hl : configLegal s.cfg = true) {i : Instr} (hi : i ≠ .reset) :
    (flag s s.cfg.srOvr = true → flag (handler i s) s.cfg.srOvr = true ∨
      ∃ w, i = .writeSr w ∧ getBit w s.cfg.srOvr = true) ∧
    (flag s s.cfg.srOvr = false → flag (handler i s) s.cfg.srOvr = false ∨ ∃ w, i = .writeDr w) := by
  obtain ⟨-, -, -, -, -, -, -, hudrOvr, -⟩ := srPositions_ne hl
  cases i with
  | reset => exact absurd rfl hi
  | readDr => simp [flag_handler_readDr, hudrOvr.symm]
  | writeSr w =>
    simp only [flag_handler_writeSr, decide_true, Bool.true_or, Bool.and_true]
    cases hw : getBit w s.cfg.srOvr <;> simp [hw]
  | writeDr w =>
    refine ⟨fun h => .inl ?_, fun _ => .inr ⟨w, rfl⟩⟩
    have hset : flag (pushTx (txByte w) (beginStep s)) s.cfg.srOvr = true := by simp [flag_pushTx, h]
    have hengine := flag_transferEngine_srOvr_of_set (s := pushTx (txByte w) (beginStep s)) (by simpa using hl)
      (by simpa using hset)
    rwa [pushTx_cfg] at hengine
  | _ => exact ⟨.inl, .inl⟩

/-- Of the accesses only WRITE_SR, where written 1, clears UDR, and only READ_DR sets it. -/
theorem handler_srUdr_sticky {s : State} (hl : configLegal s.cfg = true) {i : Instr} (hi : i ≠ .reset) :
    (flag s s.cfg.srUdr = true → flag (handler i s) s.cfg.srUdr = true ∨
      ∃ w, i = .writeSr w ∧ getBit w s.cfg.srUdr = true) ∧
    (flag s s.cfg.srUdr = false → flag (handler i s) s.cfg.srUdr = false ∨ i = .readDr) := by
  obtain ⟨-, -, -, -, htxeUdr, -, -, hudrOvr, hudrBsy, -⟩ := srPositions_ne hl
  cases i with
  | reset => exact absurd rfl hi
  | readDr => exact ⟨fun h => .inl (by simp [flag_handler_readDr, h]), fun _ => .inr rfl⟩
  | writeSr w =>
    simp only [flag_handler_writeSr, decide_true, Bool.or_true, Bool.and_true]
    cases hw : getBit w s.cfg.srUdr <;> simp [hw]
  | writeDr w =>
    rw [flag_handler_writeDr s w _ hudrOvr, if_neg htxeUdr.symm, if_neg hudrBsy]
    exact ⟨.inl, .inl⟩
  | _ => exact ⟨.inl, .inl⟩

/-- Settles O43: RESET clears both flags; of an access the handler decides. -/
theorem errorFlagsAreSticky : Obligations.ErrorFlagsAreSticky := by
  unfold Obligations.ErrorFlagsAreSticky
  intro i s hl
  by_cases hi : i = .reset
  · obtain ⟨-, -, -, -, htxeUdr, htxeOvr, -⟩ := srPositions_ne hl
    subst hi
    exact ⟨_, exec_reset s, fun _ => .inr (.inl rfl), fun _ => .inr (.inl rfl),
      fun _ => .inl (by simp [flag_resetBlock, htxeOvr.symm]), fun _ => .inl (by simp [flag_resetBlock, htxeUdr.symm])⟩
  · obtain ⟨hovr, hudr⟩ := flag_access_sticky hl i
    obtain ⟨hovrKept, hovrSet⟩ := handler_srOvr_sticky hl hi
    obtain ⟨hudrKept, hudrSet⟩ := handler_srUdr_sticky hl hi
    refine ⟨_, exec_access hi s, ?_⟩
    rw [hovr, hudr]
    exact ⟨fun h => (hovrKept h).imp_right .inr, fun h => (hudrKept h).imp_right .inr, hovrSet, hudrSet⟩

/-! ### Idempotence -/

/-- What WRITE_SR cleared at a quiescent point is clear after it, so the same write clears nothing more. -/
theorem writeSr_sr_stable {s : State} (h : s.Inv) (w : Word) :
    (interruptCombinator (handler (.writeSr w) s)).sr &&& ~~~clearMask s.cfg w
      = (interruptCombinator (handler (.writeSr w) s)).sr := by
  refine word_ext fun b => ?_
  have hb := flag_writeSr_of_inv h w b
  rw [flag] at hb
  rw [getBit_and, getBit_not, hb, getBit_clearMask, Bool.and_assoc, Bool.and_self]

/-- But for the two on DR, the handler of an operation just made at a quiescent point has nothing left to do. -/
theorem handler_epilogue_handler {i : Instr} {s : State} (h : s.Inv) (hr : i.operation ≠ .readDr)
    (hw : i.operation ≠ .writeDr) : handler i (epilogue i (handler i s)) = epilogue i (handler i s) := by
  cases i with
  | readDr => exact absurd rfl hr
  | writeDr w => exact absurd rfl hw
  | readSr =>
    have hsr := h.interruptCombinator_sr (u := handler .readSr s) rfl rfl rfl rfl
    exact congrArg (fun v => returnValue v (interruptCombinator (handler .readSr s))) hsr
  | writeSr w =>
    exact congrArg (fun v => { interruptCombinator (handler (.writeSr w) s) with sr := v }) (writeSr_sr_stable h w)
  | _ => rfl

/-- The epilogue of an operation just made has nothing to do at the quiescent point it left. -/
theorem State.Inv.epilogue_eq_self {s : State} (h : s.Inv) (i : Instr) : epilogue i s = s := by
  unfold epilogue
  split_ifs
  · rfl
  · exact interruptCombinator_eq_self h.flag_srRxne h.flag_srTxe h.irq

/-- Settles O45: neither the handler nor the epilogue has anything left to do. -/
theorem operationsButOnDrAreIdempotent : Obligations.OperationsButOnDrAreIdempotent := by
  unfold Obligations.OperationsButOnDrAreIdempotent
  intro i s hr hw h
  refine ⟨_, exec_eq_epilogue i s, ?_⟩
  rw [exec_eq_epilogue, handler_epilogue_handler h hr hw, (h.exec (exec_eq_epilogue i s)).epilogue_eq_self]

end Sys2Proof.Machine
end

section
/-! PROOFS. What influences what: the control registers (the spec's decision D18), the answers of the bus
(spec/45_bus_and_slave.md R160 to R164), and the parameters of the reference slave (R169). -/

namespace Sys2Proof.Machine

/-! ### The FIFO operations, each as one update of the state -/

theorem pushTx_eq (b : Byte) (s : State) :
    pushTx b s
      = { s with
          txFifo := if s.txFifo.length = s.cfg.fifoCapacity then s.txFifo else s.txFifo ++ [b]
          sr := if s.txFifo.length = s.cfg.fifoCapacity then setBit s.sr s.cfg.srOvr true else s.sr } := by
  obtain ⟨h, e⟩ | ⟨h, e⟩ := pushTx_cases b s
  · rw [e, if_pos h, if_pos h]; rfl
  · rw [e, if_neg h, if_neg h]

theorem pushRx_eq (r : Byte) (s : State) :
    pushRx r s
      = { s with
          rxFifo := if s.rxFifo.length = s.cfg.fifoCapacity then s.rxFifo else s.rxFifo ++ [r]
          sr := if s.rxFifo.length = s.cfg.fifoCapacity then setBit s.sr s.cfg.srOvr true else s.sr } := by
  obtain ⟨h, e⟩ | ⟨h, e⟩ := pushRx_cases r s
  · rw [e, if_pos h, if_pos h]; rfl
  · rw [e, if_neg h, if_neg h]

theorem popRx_eq (s : State) :
    popRx s
      = { s with
          rxFifo := s.rxFifo.tail
          sr := if s.rxFifo.isEmpty then setBit s.sr s.cfg.srUdr true else s.sr
          result := some (s.rxFifo.head?.elim 0x00000000 rxWord) } := by
  rcases h : s.rxFifo with _ | ⟨b, q⟩
  · rw [popRx_nil h]; rfl
  · rw [popRx_cons h]; rfl

/-- An iteration of the engine, whatever tx_fifo holds. -/
theorem engineIteration_eq (s : State) :
    engineIteration s
      = pushRx (busTransfer s.bus s.csOut (fifoPop s.txFifo).2.1).2
          { s with
            txFifo := (fifoPop s.txFifo).1
            bus := (busTransfer s.bus s.csOut (fifoPop s.txFifo).2.1).1 } := rfl

/-! ### The control registers -/

/-- A state with other values in the three registers the engine does not read (R114). -/
def State.withControl (c1 c2 cs : Word) (s : State) : State := { s with cr1 := c1, cr2 := c2, csctrl := cs }

section
variable (c1 c2 cs : Word) (s : State)

theorem withControl_cfg : (s.withControl c1 c2 cs).cfg = s.cfg := rfl

theorem withControl_txFifo : (s.withControl c1 c2 cs).txFifo = s.txFifo := rfl

theorem setFlag_withControl (b : Fin 32) (x : Bool) :
    setFlag b x (s.withControl c1 c2 cs) = (setFlag b x s).withControl c1 c2 cs := rfl

theorem popRx_withControl : popRx (s.withControl c1 c2 cs) = (popRx s).withControl c1 c2 cs := by
  rw [popRx_eq, popRx_eq s]; rfl

theorem pushTx_withControl (b : Byte) : pushTx b (s.withControl c1 c2 cs) = (pushTx b s).withControl c1 c2 cs := by
  rw [pushTx_eq, pushTx_eq b s]; rfl

theorem engineIteration_withControl :
    engineIteration (s.withControl c1 c2 cs) = (engineIteration s).withControl c1 c2 cs := by
  rw [engineIteration_eq, engineIteration_eq s, pushRx_eq, pushRx_eq]; rfl

theorem engineLoop_withControl (q : List Byte) :
    engineLoop q (s.withControl c1 c2 cs) = (engineLoop q s).withControl c1 c2 cs := by
  induction q generalizing s with
  | nil => rfl
  | cons t q ih => rw [engineLoop, engineIteration_withControl, ih]; rfl

theorem transferEngine_withControl :
    transferEngine (s.withControl c1 c2 cs) = (transferEngine s).withControl c1 c2 cs := by
  simp only [transferEngine, setFlag_withControl, withControl_cfg, withControl_txFifo, setFlag_txFifo,
    engineLoop_withControl]

/-- The handler of READ_DR reads no control register. -/
theorem handler_readDr_withControl :
    handler .readDr (s.withControl c1 c2 cs) = (handler .readDr s).withControl c1 c2 cs :=
  popRx_withControl c1 c2 cs (beginStep s)

/-- The handler of WRITE_DR reads no control register. -/
theorem handler_writeDr_withControl (w : Word) :
    handler (.writeDr w) (s.withControl c1 c2 cs) = (handler (.writeDr w) s).withControl c1 c2 cs :=
  (congrArg transferEngine (pushTx_withControl c1 c2 cs (beginStep s) (txByte w))).trans
    (transferEngine_withControl c1 c2 cs _)

end

/-- Settles O48: the epilogue adds only the interrupt line to what the handler reads of the three registers. -/
theorem transferIgnoresTheControlRegisters : Obligations.TransferIgnoresTheControlRegisters := by
  unfold Obligations.TransferIgnoresTheControlRegisters
  intro s w c1 c2 cs
  refine ⟨_, _, exec_access (by simp) s, exec_access (by simp) (s.withControl c1 c2 cs), ?_⟩
  rw [handler_writeDr_withControl]
  rfl

/-- No handler but those of READ_CR1, WRITE_CR1 and RESET touches cr1. -/
theorem handler_setCr1 {i : Instr} (hread : i.operation ≠ .readCr1) (hwrite : i.operation ≠ .writeCr1)
    (hreset : i.operation ≠ .reset) (s : State) (v : Word) :
    handler i { s with cr1 := v } = { handler i s with cr1 := v } := by
  cases i with
  | reset => exact absurd rfl hreset
  | readCr1 => exact absurd rfl hread
  | writeCr1 w => exact absurd rfl hwrite
  | readDr => exact (handler_readDr_withControl v s.cr2 s.csctrl s).trans (by simp [State.withControl, handler])
  | writeDr w => exact (handler_writeDr_withControl v s.cr2 s.csctrl s w).trans (by simp [State.withControl, handler])
  | _ => rfl

/-- WRITE_CR1 and RESET overwrite cr1. -/
theorem handler_setCr1_of_overwrites {i : Instr} (hi : i.operation = .writeCr1 ∨ i.operation = .reset) (s : State)
    (v : Word) : handler i { s with cr1 := v } = handler i s := by
  cases i with
  | reset | writeCr1 w => rfl
  | _ => simp [Instr.operation] at hi

theorem epilogue_setCr1 (i : Instr) (s : State) (v : Word) :
    epilogue i { s with cr1 := v } = { epilogue i s with cr1 := v } := by
  unfold epilogue
  split_ifs <;> rfl

/-- Settles O47: an operation overwrites cr1 or carries it through its handler and its epilogue. -/
theorem cr1InfluencesNothing : Obligations.Cr1InfluencesNothing := by
  unfold Obligations.Cr1InfluencesNothing
  intro i s v hread
  refine ⟨_, exec_eq_epilogue i s, ?_⟩
  rw [exec_eq_epilogue]
  split_ifs with hi
  · rw [handler_setCr1_of_overwrites hi]
  · obtain ⟨hwrite, hreset⟩ := not_or.1 hi
    rw [handler_setCr1 hread hwrite hreset, epilogue_setCr1]

/-! ### SSOE -/

/-- No handler but those of READ_CR2, WRITE_CR2 and RESET touches cr2. -/
theorem handler_setCr2 {i : Instr} (hread : i.operation ≠ .readCr2) (hwrite : i.operation ≠ .writeCr2)
    (hreset : i.operation ≠ .reset) (s : State) (v : Word) :
    handler i { s with cr2 := v } = { handler i s with cr2 := v } := by
  cases i with
  | reset => exact absurd rfl hreset
  | readCr2 => exact absurd rfl hread
  | writeCr2 w => exact absurd rfl hwrite
  | readDr => exact (handler_readDr_withControl s.cr1 v s.csctrl s).trans (by simp [State.withControl, handler])
  | writeDr w => exact (handler_writeDr_withControl s.cr1 v s.csctrl s w).trans (by simp [State.withControl, handler])
  | _ => rfl

/-- WRITE_CR2 and RESET overwrite cr2. -/
theorem handler_setCr2_of_overwrites {i : Instr} (hi : i.operation = .writeCr2 ∨ i.operation = .reset) (s : State)
    (v : Word) : handler i { s with cr2 := v } = handler i s := by
  cases i with
  | reset | writeCr2 w => rfl
  | _ => simp [Instr.operation] at hi

theorem handler_cr2_of_ne {i : Instr} (hwrite : i.operation ≠ .writeCr2) (hreset : i.operation ≠ .reset) (s : State) :
    (handler i s).cr2 = s.cr2 := by
  cases i with
  | reset => exact absurd rfl hreset
  | writeCr2 w => exact absurd rfl hwrite
  | _ => simp [handler]

/-- The formula of the line does not look at SSOE. -/
theorem irqLevel_setBit_cr2Ssoe {c : Config} (hl : configLegal c = true) (sr cr2 : Word) (x : Bool) :
    irqLevel c sr (setBit cr2 c.cr2Ssoe x) = irqLevel c sr cr2 := by
  obtain ⟨htxeie, hrxneie, herrie⟩ := ssoe_ne hl
  simp only [irqLevel, getBit_setBit, htxeie, hrxneie, herrie, if_false]

/-- The epilogue carries SSOE through, from a state `u` with the configuration and the cr2 of `s`. -/
theorem epilogue_setSsoe {s u : State} (hl : configLegal s.cfg = true) (cfg : u.cfg = s.cfg) (cr2 : u.cr2 = s.cr2)
    (i : Instr) (x : Bool) :
    epilogue i { u with cr2 := setBit s.cr2 s.cfg.cr2Ssoe x }
      = { epilogue i u with cr2 := setBit s.cr2 s.cfg.cr2Ssoe x } := by
  rw [← cfg] at hl
  rw [← cfg, ← cr2]
  unfold epilogue
  split_ifs
  · rfl
  · exact congrArg (fun y => { interruptCombinator u with cr2 := setBit u.cr2 u.cfg.cr2Ssoe x, irqOut := y })
      (irqLevel_setBit_cr2Ssoe hl (refreshStatus u).sr u.cr2 x)

/-- Settles O49: an operation overwrites cr2 or carries it through its handler and its epilogue, whose formula does not
look at SSOE. -/
theorem ssoeHasNoFunction : Obligations.SsoeHasNoFunction := by
  unfold Obligations.SsoeHasNoFunction
  intro i s x hl hread
  refine ⟨_, exec_eq_epilogue i s, ?_⟩
  rw [exec_eq_epilogue]
  split_ifs with hi
  · rw [handler_setCr2_of_overwrites hi]
  · obtain ⟨hwrite, hreset⟩ := not_or.1 hi
    have hcr2 := handler_cr2_of_ne hwrite hreset s
    have hcr2' : (epilogue i (handler i s)).cr2 = s.cr2 := by rw [epilogue_frame]; exact hcr2
    rw [handler_setCr2 hread hwrite hreset, epilogue_setSsoe hl (handler_cfg i s) hcr2, hcr2']

/-! ### The answers of the bus -/

/-- What the bus was given: the lines and the byte sent of each transfer. -/
def BusState.given (b : BusState) : List (List Bool × Byte) := b.log.map fun x => (x.cs, x.sent)

/-- Two states that differ in what the bus answered, and so in its state and in the bytes rx_fifo holds, and in nothing
else: not in the number of bytes received nor in what the bus was given. -/
def SameButAnswers (s u : State) : Prop :=
  ∃ bus rx, u = { s with bus := bus, rxFifo := rx } ∧ rx.length = s.rxFifo.length ∧ bus.given = s.bus.given

section
variable {s u : State}

theorem SameButAnswers.setFlag (h : SameButAnswers s u) (b : Fin 32) (x : Bool) :
    SameButAnswers (setFlag b x s) (setFlag b x u) := by
  obtain ⟨bus, rx, rfl, hlen, hgiven⟩ := h
  exact ⟨bus, rx, rfl, hlen, hgiven⟩

theorem SameButAnswers.pushTx (h : SameButAnswers s u) (b : Byte) : SameButAnswers (pushTx b s) (pushTx b u) := by
  obtain ⟨bus, rx, rfl, hlen, hgiven⟩ := h
  rw [pushTx_eq, pushTx_eq]
  exact ⟨bus, rx, rfl, hlen, hgiven⟩

/-- Whether rx_fifo has room depends on the number of bytes it holds, not on what they are or what is pushed. -/
theorem SameButAnswers.pushRx (h : SameButAnswers s u) (r r' : Byte) : SameButAnswers (pushRx r s) (pushRx r' u) := by
  obtain ⟨bus, rx, rfl, hlen, hgiven⟩ := h
  rw [pushRx_eq, pushRx_eq]
  simp only [hlen]
  refine ⟨bus, _, rfl, ?_, hgiven⟩
  split_ifs
  · exact hlen
  · rw [List.length_append, List.length_append, hlen]; rfl

theorem busTransfer_given (b : BusState) (cs : List Bool) (t : Byte) :
    (busTransfer b cs t).1.given = b.given ++ [(cs, t)] := by
  rw [BusState.given, busTransfer_log, List.map_append]; rfl

theorem SameButAnswers.engineIteration (h : SameButAnswers s u) :
    SameButAnswers (engineIteration s) (engineIteration u) := by
  obtain ⟨bus, rx, rfl, hlen, hgiven⟩ := h
  have htransfer (t : Byte) (q : List Byte) : SameButAnswers
      { s with txFifo := q, bus := (busTransfer s.bus s.csOut t).1 }
      { s with txFifo := q, bus := (busTransfer bus s.csOut t).1, rxFifo := rx } :=
    ⟨_, rx, rfl, hlen, by rw [busTransfer_given, busTransfer_given, hgiven]⟩
  exact (htransfer _ _).pushRx _ _

theorem SameButAnswers.engineLoop (h : SameButAnswers s u) (q : List Byte) :
    SameButAnswers (engineLoop q s) (engineLoop q u) := by
  induction q generalizing s u with
  | nil => exact h
  | cons t q ih => exact ih h.engineIteration

theorem SameButAnswers.cfg (h : SameButAnswers s u) : u.cfg = s.cfg := by
  obtain ⟨bus, rx, rfl, -⟩ := h; rfl

theorem SameButAnswers.txFifo (h : SameButAnswers s u) : u.txFifo = s.txFifo := by
  obtain ⟨bus, rx, rfl, -⟩ := h; rfl

theorem SameButAnswers.transferEngine (h : SameButAnswers s u) :
    SameButAnswers (transferEngine s) (transferEngine u) := by
  simp only [Machine.transferEngine, setFlag_cfg, setFlag_txFifo, engineLoop_cfg, h.cfg, h.txFifo]
  exact (((h.setFlag _ _).engineLoop _).setFlag _ _).setFlag _ _

/-- The epilogue sees of rx_fifo only whether it holds a byte. -/
theorem SameButAnswers.epilogue (h : SameButAnswers s u) (i : Instr) :
    SameButAnswers (epilogue i s) (epilogue i u) := by
  by_cases hi : i = .reset
  · simpa only [Machine.epilogue, if_pos hi] using h
  · obtain ⟨bus, rx, rfl, hlen, hgiven⟩ := h
    have hrefresh : refreshStatus { s with bus := bus, rxFifo := rx }
        = { refreshStatus s with bus := bus, rxFifo := rx } := by
      simp [refreshStatus, Machine.setFlag, fifoIsEmpty, hlen]
    simp only [Machine.epilogue, if_neg hi, interruptCombinator, hrefresh]
    exact ⟨bus, rx, rfl, hlen, hgiven⟩

end

/-- No handler but WRITE_DR's looks at the bus. -/
theorem handler_setBus {i : Instr} (hi : i.operation ≠ .writeDr) (s : State) (b : BusState) :
    handler i { s with bus := b } = { handler i s with bus := b } := by
  cases i with
  | writeDr w => exact absurd rfl hi
  | readDr =>
    simp only [handler, popRx_eq]; rfl
  | _ => rfl

/-- With another bus that was given the same, a handler leaves the same but for the answers. -/
theorem handler_sameButAnswers (i : Instr) (s : State) {b : BusState} (hb : b.given = s.bus.given) :
    SameButAnswers (handler i s) (handler i { s with bus := b }) := by
  by_cases hi : i.operation = .writeDr
  · obtain ⟨w, rfl⟩ := eq_writeDr_of_operation hi
    have hbegin : SameButAnswers (beginStep s) (beginStep { s with bus := b }) := ⟨b, s.rxFifo, rfl, rfl, hb⟩
    exact (hbegin.pushTx (txByte w)).transferEngine
  · exact ⟨b, _, handler_setBus hi s b, rfl, by rw [handler_bus_of_ne hi, hb]⟩

/-- Settles O50: handler and epilogue carry the difference in the answers no further. -/
theorem busAnswersReachOnlyTheReceiveFifo : Obligations.BusAnswersReachOnlyTheReceiveFifo := by
  unfold Obligations.BusAnswersReachOnlyTheReceiveFifo
  intro i s env
  have hsame := (handler_sameButAnswers i s (b := ⟨env, s.bus.log⟩) rfl).epilogue i
  refine ⟨_, _, exec_eq_epilogue i s, exec_eq_epilogue i _, ?_⟩
  obtain ⟨bus, rx, e, hlen, hgiven⟩ := hsame
  rw [e]
  exact ⟨rfl, hlen, hgiven⟩

/-! ### The reference slave -/

/-- Transfers on the reference bus leave it the reference bus with the same parameters. -/
theorem busAfter_ref {b : BusState} {p : SlaveParams} {st : SlaveState} (h : b.env = .ref p st) (cs : List Bool)
    (q : List Byte) : ∃ st', (busAfter b cs q).env = .ref p st' := by
  induction q generalizing b st with
  | nil => exact ⟨st, h⟩
  | cons t q ih => exact ih (busTransfer_ref h cs t)

theorem exec_ref {s t : State} {i : Instr} {p : SlaveParams} {st : SlaveState} (h : s.bus.env = .ref p st)
    (he : exec i s = .next t) : ∃ st', t.bus.env = .ref p st' := by
  by_cases hi : i.operation = .writeDr
  · obtain ⟨w, rfl⟩ := eq_writeDr_of_operation hi
    rw [exec_access (by simp)] at he
    rw [← Host.Outcome.next.inj he, interruptCombinator_bus, handler, transferEngine_bus, pushTx_bus, beginStep_bus]
    exact busAfter_ref h _ _
  · obtain ⟨u, hu, hbus⟩ := exec_bus_of_ne hi s
    rw [← Host.Outcome.next.inj (hu.symm.trans he), hbus]
    exact ⟨st, h⟩

/-- Settles O60: an idle step keeps the state, and of the operations only WRITE_DR reaches the bus, by transfers. -/
theorem referenceSlaveKeepsItsParameters : Obligations.ReferenceSlaveKeepsItsParameters := by
  unfold Obligations.ReferenceSlaveKeepsItsParameters
  intro s t p st h hstep
  obtain ⟨-, ⟨-, rfl⟩ | ⟨e, rest, -, he⟩⟩ := step_cases hstep
  · exact ⟨st, h⟩
  · exact exec_ref (s := { s with events := rest }) h he

end Sys2Proof.Machine
end

section
/-! PROOFS. The buses the model supplies (spec/45_bus_and_slave.md R169, R171) and the host's view of the window
(spec/00_scope.md R16). -/

namespace Sys2Proof.Machine

/-! ### Buses -/

/-- Settles O55, by the table of the slave's transfers. -/
theorem slaveGivesItsIdentityOnce : Obligations.SlaveGivesItsIdentityOnce := by
  unfold Obligations.SlaveGivesItsIdentityOnce
  intro p x y z v
  exact ⟨by simp [refSlaveTransfer], rfl, rfl, rfl, rfl, fun _ => rfl⟩

/-- A script bus with enough bytes left answers each byte sent with the next of the script. -/
theorem busAfter_script {answers sent : List Byte} (log : List BusTransfer) (cs : List Bool)
    (h : sent.length ≤ answers.length) :
    busAfter ⟨.script answers, log⟩ cs sent
      = ⟨.script (answers.drop sent.length), log ++ (sent.zip answers).map fun x => ⟨cs, x.1, x.2⟩⟩ := by
  induction sent generalizing answers log with
  | nil => simp [busAfter]
  | cons t sent ih =>
    cases answers with
    | nil => simp at h
    | cons r answers =>
      have hsent := ih (log ++ [⟨cs, t, r⟩]) (Nat.le_of_succ_le_succ h)
      rw [List.append_assoc] at hsent
      exact hsent

/-- Settles O56: the bus after the bytes sent. -/
theorem scriptBusAnswersInOrder : Obligations.ScriptBusAnswersInOrder := by
  unfold Obligations.ScriptBusAnswersInOrder
  intro answers log cs sent h
  have hbus := busAfter_script log cs h
  rw [busAfter] at hbus
  rw [hbus]
  exact ⟨rfl, rfl⟩

/-- Settles O59: attach checks the slave's parameters, and the state of creation holds the bus in its initial state. -/
theorem referenceSlaveStartsIdle : Obligations.ReferenceSlaveStartsIdle := by
  unfold Obligations.ReferenceSlaveStartsIdle
  refine fun c p hl => ⟨fun h => ⟨_, attach_of_legal hl ((slaveParamsLegal_iff p).2 h), rfl⟩, fun h => ?_⟩
  have hillegal : ¬ (Bus.ref p).legal = true := fun hb => (slaveParamsLegal_iff p).1 hb h
  rw [attach, if_pos hl, if_neg hillegal]

/-! ### The register window -/

theorem windowOffset_add (base : Nat) (o : Offset) : windowOffset base (base + o.toNat) = some o := by
  have ho : o.toNat < windowSize := o.isLt
  rw [windowOffset, if_pos ⟨Nat.le_add_right _ _, by omega⟩, Nat.add_sub_cancel_left, BitVec.ofNat_toNat,
    BitVec.setWidth_eq]

theorem windowOffset_outside {base addr : Nat} (h : addr < base ∨ base + windowSize ≤ addr) :
    windowOffset base addr = none :=
  if_neg (by omega)

/-- Settles O57: a host access is the event of its offset in the window, if it has one. -/
theorem windowAddressesAreOffsets : Obligations.WindowAddressesAreOffsets := by
  unfold Obligations.WindowAddressesAreOffsets
  refine ⟨fun o v => ?_, fun addr v h => ?_⟩
  · rw [hostRead, hostWrite, windowOffset_add]
    exact ⟨rfl, rfl⟩
  · rw [hostRead, hostWrite, windowOffset_outside h]
    exact ⟨rfl, rfl⟩

end Sys2Proof.Machine
end
